-- ==== Sys2Proof/Word.lean ====
section
/-! DEFINITION. The word types of the CORE (00_scope R4, R5): bytes, 16-bit words, 4-bit digits and 12-bit addresses. -/

namespace Sys2Proof

/-- An 8-bit value: a general register, a timer, a byte of memory (`XLEN`, R4). -/
abbrev Byte := BitVec 8

/-- A 16-bit value: the PC, the index register, a stack entry, an instruction word (`PCLEN`, `ILEN`, R4). -/
abbrev Word := BitVec 16

/-- A 4-bit field: a register number `x` or `y`, the field `n`, a key number (30_encoding R61). -/
abbrev Digit := BitVec 4

/-- The 12-bit field `nnn` (30_encoding R61). -/
abbrev Addr12 := BitVec 12

end Sys2Proof
end

