-- ==== Sys2Proof/Syntax.lean ====
section
/-! DEFINITION. The instructions: one constructor per row of 30_encoding R64. Register numbers and immediates are the
fields of R61. A digit the decoder reads past (R66) is kept as an operand the meaning ignores, so that the 65536 words
and the well-formed instructions correspond one to one (log entry 11). -/

namespace Sys2Proof

/-- One constructor per row of the opcode map (30_encoding R64), in the table's order. -/
inductive Instr where
  /-- 0_E0: clear the display (R140); the digit is bits 11:8, ignored (R66). -/
  | cls (ignored : Digit)
  /-- 0_EE: return (R83); the digit is bits 11:8, ignored (R66). -/
  | ret (ignored : Digit)
  /-- 0nnn, low byte neither 0xE0 nor 0xEE: no-op (R160). -/
  | sys (nnn : Addr12)
  /-- 1nnn: jump (R81). -/
  | jp (nnn : Addr12)
  /-- 2nnn: call (R82). -/
  | call (nnn : Addr12)
  /-- 3xnn: skip if `V[x] = nn` (R90). -/
  | se (x : Digit) (nn : Byte)
  /-- 4xnn: skip if `V[x] != nn` (R91). -/
  | sne (x : Digit) (nn : Byte)
  /-- 5xy_: skip if `V[x] = V[y]` (R92); the last digit is bits 3:0, ignored (R66). -/
  | ser (x y ignored : Digit)
  /-- 6xnn: load immediate (R100). -/
  | ld (x : Digit) (nn : Byte)
  /-- 7xnn: add immediate, no flag (R101). -/
  | add (x : Digit) (nn : Byte)
  /-- 8xy0: copy (R111). -/
  | mov (x y : Digit)
  /-- 8xy1: OR (R112). -/
  | or (x y : Digit)
  /-- 8xy2: AND (R113). -/
  | and (x y : Digit)
  /-- 8xy3: XOR (R114). -/
  | xor (x y : Digit)
  /-- 8xy4: add with carry out (R115). -/
  | addr (x y : Digit)
  /-- 8xy5: `V[x] - V[y]` (R116). -/
  | sub (x y : Digit)
  /-- 8xy6: shift right by one (R117). -/
  | shr (x y : Digit)
  /-- 8xy7: `V[y] - V[x]` (R118). -/
  | subn (x y : Digit)
  /-- 8xyE: shift left by one (R119). -/
  | shl (x y : Digit)
  /-- 8xyN, N one of 8, 9, A, B, C, D, F: no-op (R161). -/
  | nop8 (x y n : Digit)
  /-- 9xy_: skip if `V[x] != V[y]` (R93); the last digit is bits 3:0, ignored (R66). -/
  | sner (x y ignored : Digit)
  /-- Annn: load the index register (R130). -/
  | ldi (nnn : Addr12)
  /-- Bnnn: jump with register offset (R84). -/
  | jpv (nnn : Addr12)
  /-- Cxnn: random byte masked (R102). -/
  | rnd (x : Digit) (nn : Byte)
  /-- Dxyn: draw a sprite of n rows (R141). -/
  | drw (x y n : Digit)
  /-- Ex9E: skip if key held (R150). -/
  | skp (x : Digit)
  /-- ExA1: skip if key not held (R151). -/
  | sknp (x : Digit)
  /-- Exnn, nn neither 0x9E nor 0xA1: no-op (R162). -/
  | nope (x : Digit) (nn : Byte)
  /-- Fx07: read the delay timer (R152). -/
  | ldvdt (x : Digit)
  /-- Fx0A: wait for a key press (R153). -/
  | ldk (x : Digit)
  /-- Fx15: set the delay timer (R154). -/
  | lddt (x : Digit)
  /-- Fx18: set the sound timer (R155). -/
  | ldst (x : Digit)
  /-- Fx1E: add to the index register (R131). -/
  | addi (x : Digit)
  /-- Fx29: point the index register at a glyph (R132). -/
  | ldf (x : Digit)
  /-- Fx33: store decimal digits (R133). -/
  | bcd (x : Digit)
  /-- Fx55: store `V[0]` to `V[x]` (R134). -/
  | stm (x : Digit)
  /-- Fx65: load `V[0]` to `V[x]` (R135). -/
  | ldm (x : Digit)
  /-- Fxnn, nn none of the nine matched values: no-op (R163). -/
  | nopf (x : Digit) (nn : Byte)
deriving DecidableEq, Repr

end Sys2Proof
end

