-- ==== Sys2Proof/WellFormed.lean ====
section
/-! DEFINITION. Which terms of `Instr` some word stands for: the four no-op rows take only the sub-keys that no matched
row of their class takes (30_encoding R63, R67). Every other term is well formed. -/

namespace Sys2Proof

/-- The low bytes of class 0 that select a matched row (R63). -/
def matchedNn0 : List Byte := [0xE0#8, 0xEE#8]

/-- The last digits of class 8 that select a matched row (R63). -/
def matchedN8 : List Digit := [0x0#4, 0x1#4, 0x2#4, 0x3#4, 0x4#4, 0x5#4, 0x6#4, 0x7#4, 0xE#4]

/-- The low bytes of class E that select a matched row (R63). -/
def matchedNnE : List Byte := [0x9E#8, 0xA1#8]

/-- The low bytes of class F that select a matched row (R63). -/
def matchedNnF : List Byte :=
  [0x07#8, 0x0A#8, 0x15#8, 0x18#8, 0x1E#8, 0x29#8, 0x33#8, 0x55#8, 0x65#8]

/-- Some word of the opcode map stands for the instruction (30_encoding R63, R64). -/
def Instr.wellFormed : Instr → Bool
  | .sys nnn => !(matchedNn0.contains (nnn.setWidth 8))
  | .nop8 _ _ n => !(matchedN8.contains n)
  | .nope _ nn => !(matchedNnE.contains nn)
  | .nopf _ nn => !(matchedNnF.contains nn)
  | .cls _ => true
  | .ret _ => true
  | .jp _ => true
  | .call _ => true
  | .se _ _ => true
  | .sne _ _ => true
  | .ser _ _ _ => true
  | .ld _ _ => true
  | .add _ _ => true
  | .mov _ _ => true
  | .or _ _ => true
  | .and _ _ => true
  | .xor _ _ => true
  | .addr _ _ => true
  | .sub _ _ => true
  | .shr _ _ => true
  | .subn _ _ => true
  | .shl _ _ => true
  | .sner _ _ _ => true
  | .ldi _ => true
  | .jpv _ => true
  | .rnd _ _ => true
  | .drw _ _ _ => true
  | .skp _ => true
  | .sknp _ => true
  | .ldvdt _ => true
  | .ldk _ => true
  | .lddt _ => true
  | .ldst _ => true
  | .addi _ => true
  | .ldf _ => true
  | .bcd _ => true
  | .stm _ => true
  | .ldm _ => true

end Sys2Proof
end

