-- ==== Sys2Proof/Decode.lean ====
section
/-! DEFINITION. The decoder (30_encoding R61, R63) and, after it, the encoder (R64). The decoder takes bytes: the byte at
the lower address is the high half of the word (20_memory R41). Every 16-bit word decodes (R67), so the only rejection
is by name, for fewer than two bytes. -/

namespace Sys2Proof

/-- Why the decoder rejects bytes. -/
inductive DecodeError where
  /-- Fewer than the two bytes of an instruction (R60). -/
  | truncated
deriving DecidableEq, Repr

/-- `class`, bits 15:12 (R61). -/
def classOf (op : Word) : Digit := op.extractLsb' 12 4

/-- `x`, bits 11:8 (R61). -/
def xOf (op : Word) : Digit := op.extractLsb' 8 4

/-- `y`, bits 7:4 (R61). -/
def yOf (op : Word) : Digit := op.extractLsb' 4 4

/-- `n`, bits 3:0 (R61). -/
def nOf (op : Word) : Digit := op.extractLsb' 0 4

/-- `nn`, bits 7:0 (R61). -/
def nnOf (op : Word) : Byte := op.extractLsb' 0 8

/-- `nnn`, bits 11:0 (R61). -/
def nnnOf (op : Word) : Addr12 := op.extractLsb' 0 12

/-- Class 0, sub-keyed by `nn` (R63). -/
def decodeClass0 (op : Word) : Instr :=
  if nnOf op = 0xE0#8 then .cls (xOf op)
  else if nnOf op = 0xEE#8 then .ret (xOf op)
  else .sys (nnnOf op)

/-- Class 8, sub-keyed by `n` (R63). -/
def decodeClass8 (x y n : Digit) : Instr :=
  if n = 0x0#4 then .mov x y
  else if n = 0x1#4 then .or x y
  else if n = 0x2#4 then .and x y
  else if n = 0x3#4 then .xor x y
  else if n = 0x4#4 then .addr x y
  else if n = 0x5#4 then .sub x y
  else if n = 0x6#4 then .shr x y
  else if n = 0x7#4 then .subn x y
  else if n = 0xE#4 then .shl x y
  else .nop8 x y n

/-- Class E, sub-keyed by `nn` (R63). -/
def decodeClassE (x : Digit) (nn : Byte) : Instr :=
  if nn = 0x9E#8 then .skp x
  else if nn = 0xA1#8 then .sknp x
  else .nope x nn

/-- Class F, sub-keyed by `nn` (R63). -/
def decodeClassF (x : Digit) (nn : Byte) : Instr :=
  if nn = 0x07#8 then .ldvdt x
  else if nn = 0x0A#8 then .ldk x
  else if nn = 0x15#8 then .lddt x
  else if nn = 0x18#8 then .ldst x
  else if nn = 0x1E#8 then .addi x
  else if nn = 0x29#8 then .ldf x
  else if nn = 0x33#8 then .bcd x
  else if nn = 0x55#8 then .stm x
  else if nn = 0x65#8 then .ldm x
  else .nopf x nn

/-- The instruction a word selects: the dispatch on `class` of R63. Total on all 65536 words (R67). -/
def decodeWord (op : Word) : Instr :=
  match (classOf op).toNat with
  | 0x0 => decodeClass0 op
  | 0x1 => .jp (nnnOf op)
  | 0x2 => .call (nnnOf op)
  | 0x3 => .se (xOf op) (nnOf op)
  | 0x4 => .sne (xOf op) (nnOf op)
  | 0x5 => .ser (xOf op) (yOf op) (nOf op)
  | 0x6 => .ld (xOf op) (nnOf op)
  | 0x7 => .add (xOf op) (nnOf op)
  | 0x8 => decodeClass8 (xOf op) (yOf op) (nOf op)
  | 0x9 => .sner (xOf op) (yOf op) (nOf op)
  | 0xA => .ldi (nnnOf op)
  | 0xB => .jpv (nnnOf op)
  | 0xC => .rnd (xOf op) (nnOf op)
  | 0xD => .drw (xOf op) (yOf op) (nOf op)
  | 0xE => decodeClassE (xOf op) (nnOf op)
  | _ => decodeClassF (xOf op) (nnOf op)

/-- The word two bytes form, the byte at the lower address in the high half (20_memory R41). -/
def wordOfBytes (high low : Byte) : Word := high ++ low

/-- The instruction at the head of some bytes, and the bytes after it; fewer than two bytes are rejected by name. -/
def decode : List Byte → Except DecodeError (Instr × List Byte)
  | high :: low :: rest => .ok (decodeWord (wordOfBytes high low), rest)
  | [_] => .error .truncated
  | [] => .error .truncated

/-- Format NNN: class, nnn (R62). -/
def wordNNN (cls : Digit) (nnn : Addr12) : Word := cls ++ nnn

/-- Format XNN: class, x, nn; and XS and S, whose sub-opcode stands in `nn` (R62). -/
def wordXNN (cls x : Digit) (nn : Byte) : Word := cls ++ (x ++ nn)

/-- Format XYN: class, x, y, n (R62). -/
def wordXYN (cls x y n : Digit) : Word := cls ++ (x ++ (y ++ n))

/-- The word of an instruction, row by row of R64. -/
def encodeWord : Instr → Word
  | .cls d => wordXNN 0x0#4 d 0xE0#8
  | .ret d => wordXNN 0x0#4 d 0xEE#8
  | .sys nnn => wordNNN 0x0#4 nnn
  | .jp nnn => wordNNN 0x1#4 nnn
  | .call nnn => wordNNN 0x2#4 nnn
  | .se x nn => wordXNN 0x3#4 x nn
  | .sne x nn => wordXNN 0x4#4 x nn
  | .ser x y d => wordXYN 0x5#4 x y d
  | .ld x nn => wordXNN 0x6#4 x nn
  | .add x nn => wordXNN 0x7#4 x nn
  | .mov x y => wordXYN 0x8#4 x y 0x0#4
  | .or x y => wordXYN 0x8#4 x y 0x1#4
  | .and x y => wordXYN 0x8#4 x y 0x2#4
  | .xor x y => wordXYN 0x8#4 x y 0x3#4
  | .addr x y => wordXYN 0x8#4 x y 0x4#4
  | .sub x y => wordXYN 0x8#4 x y 0x5#4
  | .shr x y => wordXYN 0x8#4 x y 0x6#4
  | .subn x y => wordXYN 0x8#4 x y 0x7#4
  | .shl x y => wordXYN 0x8#4 x y 0xE#4
  | .nop8 x y n => wordXYN 0x8#4 x y n
  | .sner x y d => wordXYN 0x9#4 x y d
  | .ldi nnn => wordNNN 0xA#4 nnn
  | .jpv nnn => wordNNN 0xB#4 nnn
  | .rnd x nn => wordXNN 0xC#4 x nn
  | .drw x y n => wordXYN 0xD#4 x y n
  | .skp x => wordXNN 0xE#4 x 0x9E#8
  | .sknp x => wordXNN 0xE#4 x 0xA1#8
  | .nope x nn => wordXNN 0xE#4 x nn
  | .ldvdt x => wordXNN 0xF#4 x 0x07#8
  | .ldk x => wordXNN 0xF#4 x 0x0A#8
  | .lddt x => wordXNN 0xF#4 x 0x15#8
  | .ldst x => wordXNN 0xF#4 x 0x18#8
  | .addi x => wordXNN 0xF#4 x 0x1E#8
  | .ldf x => wordXNN 0xF#4 x 0x29#8
  | .bcd x => wordXNN 0xF#4 x 0x33#8
  | .stm x => wordXNN 0xF#4 x 0x55#8
  | .ldm x => wordXNN 0xF#4 x 0x65#8
  | .nopf x nn => wordXNN 0xF#4 x nn

/-- The bytes of a word in memory order, the high half at the lower address (20_memory R41). -/
def bytesOfWord (w : Word) : List Byte := [w.extractLsb' 8 8, w.extractLsb' 0 8]

/-- The bytes of an instruction in memory order. -/
def encode (i : Instr) : List Byte := bytesOfWord (encodeWord i)

/-- The first `nbits` bits of `w`, every later bit zero, as a 16-bit word: how spec/opcode_table.json numbers an
instruction's bits (bit 0 the least significant of the one word). -/
def tableWord (nbits w : Nat) : Word := BitVec.ofNat 16 (w % 2 ^ nbits)

/-- The decoder on an opcode-table word, laid out as the hardware stores it (20_memory R41). -/
def decodeTableWord (nbits w : Nat) : Option Instr :=
  match decode (bytesOfWord (tableWord nbits w)) with
  | .ok (i, _) => some i
  | .error _ => none

/-- The mnemonic of an instruction's row (30_encoding R64). -/
def Instr.mnemonic : Instr → String
  | .cls _ => "CLS"
  | .ret _ => "RET"
  | .sys _ => "SYS"
  | .jp _ => "JP"
  | .call _ => "CALL"
  | .se _ _ => "SE"
  | .sne _ _ => "SNE"
  | .ser _ _ _ => "SER"
  | .ld _ _ => "LD"
  | .add _ _ => "ADD"
  | .mov _ _ => "MOV"
  | .or _ _ => "OR"
  | .and _ _ => "AND"
  | .xor _ _ => "XOR"
  | .addr _ _ => "ADDR"
  | .sub _ _ => "SUB"
  | .shr _ _ => "SHR"
  | .subn _ _ => "SUBN"
  | .shl _ _ => "SHL"
  | .nop8 _ _ _ => "NOP8"
  | .sner _ _ _ => "SNER"
  | .ldi _ => "LDI"
  | .jpv _ => "JPV"
  | .rnd _ _ => "RND"
  | .drw _ _ _ => "DRW"
  | .skp _ => "SKP"
  | .sknp _ => "SKNP"
  | .nope _ _ => "NOPE"
  | .ldvdt _ => "LDVDT"
  | .ldk _ => "LDK"
  | .lddt _ => "LDDT"
  | .ldst _ => "LDST"
  | .addi _ => "ADDI"
  | .ldf _ => "LDF"
  | .bcd _ => "BCD"
  | .stm _ => "STM"
  | .ldm _ => "LDM"
  | .nopf _ _ => "NOPF"

/-- One row of the opcode map: mnemonic, mask and match (30_encoding R64). -/
structure OpcodeRow where
  mnemonic : String
  mask : Word
  pattern : Word
deriving DecidableEq, Repr

/-- `w AND mask = match` (30_encoding R64). -/
def OpcodeRow.selects (row : OpcodeRow) (w : Word) : Bool := decide (w &&& row.mask = row.pattern)

/-- The 34 matched rows of 30_encoding R64: a word selects one iff it has the row's pattern under the row's mask. -/
def matchedRows : List OpcodeRow :=
  [⟨"CLS", 0xF0FF#16, 0x00E0#16⟩,
   ⟨"RET", 0xF0FF#16, 0x00EE#16⟩,
   ⟨"JP", 0xF000#16, 0x1000#16⟩,
   ⟨"CALL", 0xF000#16, 0x2000#16⟩,
   ⟨"SE", 0xF000#16, 0x3000#16⟩,
   ⟨"SNE", 0xF000#16, 0x4000#16⟩,
   ⟨"SER", 0xF000#16, 0x5000#16⟩,
   ⟨"LD", 0xF000#16, 0x6000#16⟩,
   ⟨"ADD", 0xF000#16, 0x7000#16⟩] ++
  [⟨"MOV", 0xF00F#16, 0x8000#16⟩,
   ⟨"OR", 0xF00F#16, 0x8001#16⟩,
   ⟨"AND", 0xF00F#16, 0x8002#16⟩,
   ⟨"XOR", 0xF00F#16, 0x8003#16⟩,
   ⟨"ADDR", 0xF00F#16, 0x8004#16⟩,
   ⟨"SUB", 0xF00F#16, 0x8005#16⟩,
   ⟨"SHR", 0xF00F#16, 0x8006#16⟩,
   ⟨"SUBN", 0xF00F#16, 0x8007#16⟩,
   ⟨"SHL", 0xF00F#16, 0x800E#16⟩] ++
  [⟨"SNER", 0xF000#16, 0x9000#16⟩,
   ⟨"LDI", 0xF000#16, 0xA000#16⟩,
   ⟨"JPV", 0xF000#16, 0xB000#16⟩,
   ⟨"RND", 0xF000#16, 0xC000#16⟩,
   ⟨"DRW", 0xF000#16, 0xD000#16⟩,
   ⟨"SKP", 0xF0FF#16, 0xE09E#16⟩,
   ⟨"SKNP", 0xF0FF#16, 0xE0A1#16⟩,
   ⟨"LDVDT", 0xF0FF#16, 0xF007#16⟩,
   ⟨"LDK", 0xF0FF#16, 0xF00A#16⟩] ++
  [⟨"LDDT", 0xF0FF#16, 0xF015#16⟩,
   ⟨"LDST", 0xF0FF#16, 0xF018#16⟩,
   ⟨"ADDI", 0xF0FF#16, 0xF01E#16⟩,
   ⟨"LDF", 0xF0FF#16, 0xF029#16⟩,
   ⟨"BCD", 0xF0FF#16, 0xF033#16⟩,
   ⟨"STM", 0xF0FF#16, 0xF055#16⟩,
   ⟨"LDM", 0xF0FF#16, 0xF065#16⟩]

/-- The four fallback rows of 30_encoding R64: a word selects one iff it has the row's class and no matched row selects it. -/
def fallbackRows : List OpcodeRow :=
  [⟨"SYS", 0xF000#16, 0x0000#16⟩,
   ⟨"NOP8", 0xF000#16, 0x8000#16⟩,
   ⟨"NOPE", 0xF000#16, 0xE000#16⟩,
   ⟨"NOPF", 0xF000#16, 0xF000#16⟩]

end Sys2Proof
end

