-- ==== Sys2Proof/Config.lean ====
section
/-! DEFINITION. The parameters of 00_scope R4, the inputs of a step (10_state R31), and the one free value of the model:
what the host does between two steps. -/

namespace Sys2Proof

/-- `VARIANT`, the behaviour variant, a strap sampled at reset (10_state R22). -/
inductive Variant where
  | legacy
  | modern
deriving DecidableEq, Repr, Inhabited

/-- The inputs one `STEP` samples whole, at its start (10_state R31). -/
structure Inputs where
  /-- `KEYS`: bit k is 1 iff key k is held. -/
  keys : BitVec 16
  /-- `LASTKEY`: the key pressed since the previous step, or none. No relation to `keys` (R31). -/
  lastKey : Option Digit
  /-- `RND`: the random byte, under no law (R31, R102). -/
  rnd : Byte
deriving DecidableEq, Repr, Inhabited

/-- What the host does between two steps: some `TICK` events (60_exceptions R181: any number), and the snapshot it
presents to the next step. -/
structure HostTurn where
  ticks : Nat
  inputs : Inputs
deriving DecidableEq, Repr, Inhabited

namespace Config

/-- FREE VALUE (log entries 5, 6): the host's n-th turn, number 0 the one before the first `STEP` (its snapshot; its ticks would
change nothing, both timers being 0). It has no body, so no proof can know how many ticks come between two steps, which
keys are held or pressed, or which random byte comes, at the first step or any later one (10_state R31, 60_exceptions R181). -/
opaque freeTurn : Nat → HostTurn

/-- `MEMSIZE` (R4). -/
def memSize : Nat := 4096

/-- `GLYPH_BASE` (R4). -/
def glyphBase : Nat := 0x050

/-- The size of the glyph table in bytes: 16 glyphs of `GLYPH_BYTES` = 5 (R4). -/
def glyphSize : Nat := 80

/-- `PROG_BASE`: the load address and the reset value of the PC (R4). -/
def progBase : Nat := 0x200

/-- `PROG_MAX`: the largest program image in bytes (R4). -/
def progMax : Nat := 3584

end Config

end Sys2Proof
end

