-- ==== Sys2Proof/Machine/State.lean ====
section
/-! DEFINITION. The state of the machine as plain data: the tuple of 10_state section 1, and after it the model's own
fields (the host's side and the step's output). Also the reasons a step can stop, and the state after reset. -/

namespace Sys2Proof.Machine

/-- `FAULT`, the fault latch (10_state R23). A fault is taken as a NEXT state that holds its code (60_exceptions R174;
log entry 1). -/
inductive FaultLatch where
  /-- Code 0, `None`: the machine runs. -/
  | noFault
  /-- Code 1: a step began with PC > 0xFFE (60_exceptions R171). -/
  | fetchRange
  /-- Code 2: `DRW`, `BCD`, `STM` or `LDM` would have addressed memory above 0xFFF (60_exceptions R172). -/
  | memRange
deriving DecidableEq, Repr

/-- The `redraw` output of a step (10_state R32). -/
inductive Redraw where
  | noChange
  | redrawNeeded
deriving DecidableEq, Repr

/-- Why a step stops with no next state. The spec's own two faults are NOT here: they are next states with the latch
set (`FaultLatch`). -/
inductive Fault where
  /-- Raised by the STEP event when the decoder reports that the fetched bytes are too few. Fetch always delivers two
  bytes, so it is never raised; safe. -/
  | shortFetch
deriving DecidableEq, Repr

/-- Why an instruction or an event has no meaning. -/
inductive Refusal where
  /-- Raised by an arm of `exec` for an instruction with no meaning yet; no arm is left. Safe. -/
  | notModelled (mnemonic : String)
  /-- Raised by the `LOAD` event for an image above 3584 bytes, a caller error (70_reset R204). Safe. -/
  | imageTooLong
  /-- Raised by the `LOAD` event a second time, or after the first `STEP` (70_reset R203: admitted once, after `RESET` and
  before the first `STEP`). Safe. -/
  | loadNotAdmitted
deriving DecidableEq, Repr

/-- `MEM` (10_state R24): cells with strictly rising addresses, none of them equal to what an unlisted address reads as
(`Memory.wf` in Machine/Memory.lean). -/
abbrev Memory := List Host.Cell

/-- The architectural state (10_state section 1), then the model's own fields. -/
structure State where
  /-- `V[0]` to `V[15]` (R10); `V[15]` is VF, the only flag (R11). -/
  v : Vector Byte 16
  /-- `I`, the index register (R12). -/
  index : Word
  /-- `PC` (R13). -/
  pc : Word
  /-- `STACK[0]` to `STACK[15]` (R17). -/
  stack : Vector Word 16
  /-- `SP + 1`, the number of entries in use, 0 to 16 (R18 allows the count; log entry 9). -/
  stackUsed : Fin 17
  /-- `DT`, the delay timer (R19). -/
  dt : Byte
  /-- `ST`, the sound timer (R20). -/
  st : Byte
  /-- `DISP`, 32 rows of 64 pixels, column 0 the most significant bit of a row (R21; log entry 10). -/
  disp : Vector (BitVec 64) 32
  /-- `MEM` (R24). -/
  mem : Memory
  /-- `FAULT` (R23). -/
  fault : FaultLatch
  /-- `VARIANT` (R22). -/
  variant : Variant
  /-- The model's own: the `redraw` output of the latest `STEP` (R32; log entry 7). -/
  redraw : Redraw
  /-- The model's own: the snapshot the next `STEP` samples (R31; log entry 5). -/
  inputs : Inputs
  /-- The model's own: host turns already decided, the next one first; once it is empty each turn is a free value
  (log entry 6). -/
  schedule : List HostTurn
  /-- The model's own: how many draws of `Config.freeTurn` are used up, the first `STEP`'s snapshot among them (log entry 6). -/
  draws : Nat
  /-- The model's own: whether `LOAD` is admitted (70_reset R203; log entry 8). -/
  loadable : Bool
deriving DecidableEq, Repr

/-- The machine right after `RESET` (10_state R29, 70_reset R200), with the default `GLYPH_ROM` (log entry 2), which is what
an unlisted address reads as, and `VARIANT` Legacy (log entry 3). The snapshot of the first `STEP` is the free value's draw
number 0, so the next draw is number 1 (10_state R31, 42_immediate_random R102; log entry 5). -/
def State.reset : State where
  v := Vector.replicate 16 0x00#8
  index := 0x0000#16
  pc := 0x0200#16
  stack := Vector.replicate 16 0x0000#16
  stackUsed := 0
  dt := 0x00#8
  st := 0x00#8
  disp := Vector.replicate 32 0#64
  mem := []
  fault := .noFault
  variant := .legacy
  redraw := .noChange
  inputs := (Config.freeTurn 0).inputs
  schedule := []
  draws := 1
  loadable := true

end Sys2Proof.Machine
end

