-- ==== Sys2Proof/Machine/Memory.lean ====
section
/-! DEFINITION. The memory array (20_memory R40): what an unlisted address reads as, reading and writing one byte, the
canonical form, and the checked accesses to a range of bytes (20_memory R45, 60_exceptions R172). -/

namespace Sys2Proof.Machine

/-- The default `GLYPH_ROM`, the 80 bytes of the table in 10_state R27, one digit a line (log entry 2). -/
def defaultGlyphRom : List Byte :=
  [0xF0#8, 0x90#8, 0x90#8, 0x90#8, 0xF0#8] ++
  [0x20#8, 0x60#8, 0x20#8, 0x20#8, 0x70#8] ++
  [0xF0#8, 0x10#8, 0xF0#8, 0x80#8, 0xF0#8] ++
  [0xF0#8, 0x10#8, 0xF0#8, 0x10#8, 0xF0#8] ++
  [0x90#8, 0x90#8, 0xF0#8, 0x10#8, 0x10#8] ++
  [0xF0#8, 0x80#8, 0xF0#8, 0x10#8, 0xF0#8] ++
  [0xF0#8, 0x80#8, 0xF0#8, 0x90#8, 0xF0#8] ++
  [0xF0#8, 0x10#8, 0x20#8, 0x40#8, 0x40#8] ++
  [0xF0#8, 0x90#8, 0xF0#8, 0x90#8, 0xF0#8] ++
  [0xF0#8, 0x90#8, 0xF0#8, 0x10#8, 0xF0#8] ++
  [0xF0#8, 0x90#8, 0xF0#8, 0x90#8, 0x90#8] ++
  [0xE0#8, 0x90#8, 0xE0#8, 0x90#8, 0xE0#8] ++
  [0xF0#8, 0x80#8, 0x80#8, 0x80#8, 0xF0#8] ++
  [0xE0#8, 0x90#8, 0x90#8, 0x90#8, 0xE0#8] ++
  [0xF0#8, 0x80#8, 0xF0#8, 0x80#8, 0xF0#8] ++
  [0xF0#8, 0x80#8, 0xF0#8, 0x80#8, 0x80#8]

/-- What an address that is not listed reads as: the reset contents of 10_state R29, the default glyph table at 0x050 to
0x09F and 0 elsewhere. -/
def unlisted (a : Nat) : Byte :=
  if Config.glyphBase ≤ a then defaultGlyphRom.getD (a - Config.glyphBase) 0x00#8 else 0x00#8

/-- `MemRead(a, 1)` (20_memory R40). -/
def Memory.read : Memory → Nat → Byte
  | [], a => unlisted a
  | (k, b) :: m, a => if k = a then b else Memory.read m a

/-- A cell put in front of a memory, unless it says what an unlisted address reads as anyway. -/
def Memory.cons (a : Nat) (v : Byte) (m : Memory) : Memory :=
  if v = unlisted a then m else (a, v) :: m

/-- `MemWrite(a, 1, v)` (20_memory R40), in the canonical form. -/
def Memory.write : Memory → Nat → Byte → Memory
  | [], a, v => Memory.cons a v []
  | (k, b) :: m, a, v =>
    if a < k then Memory.cons a v ((k, b) :: m)
    else if a = k then Memory.cons a v m
    else (k, b) :: Memory.write m a v

/-- The canonical form from address `lo` upward. -/
def Memory.wfFrom : Nat → Memory → Bool
  | _, [] => true
  | lo, (k, b) :: m =>
    decide (lo ≤ k) && decide (k < Config.memSize) && decide (b ≠ unlisted k) && Memory.wfFrom (k + 1) m

/-- The canonical form: addresses strictly rising and below 0x1000, no cell equal to what an unlisted address reads as. -/
def Memory.wf (m : Memory) : Bool := Memory.wfFrom 0 m

/-- `CheckRange` over the `n` addresses from `lo` (60_exceptions R172): every one is at most 0xFFF. No address, no check
(`DRW` with n = 0). -/
def inRange (lo n : Nat) : Bool := n == 0 || decide (lo + n ≤ Config.memSize)

/-- The `n` bytes from `lo` upward, in ascending order (20_memory R45). -/
def Memory.readBytes (m : Memory) (lo n : Nat) : List Byte :=
  (List.range n).map fun k => Memory.read m (lo + k)

/-- Bytes stored from `lo` upward, in ascending order (20_memory R45). -/
def Memory.writeBytes : Memory → Nat → List Byte → Memory
  | m, _, [] => m
  | m, lo, b :: bs => Memory.writeBytes (Memory.write m lo b) (lo + 1) bs

/-- A checked read of a range: none iff some address of it is above 0xFFF. -/
def Memory.readRange (m : Memory) (lo n : Nat) : Option (List Byte) :=
  if inRange lo n then some (Memory.readBytes m lo n) else none

/-- A checked write of a range: none, and nothing written, iff some address of it is above 0xFFF. -/
def Memory.writeRange (m : Memory) (lo : Nat) (bytes : List Byte) : Option Memory :=
  if inRange lo bytes.length then some (Memory.writeBytes m lo bytes) else none

end Sys2Proof.Machine
end

