-- ==== Sys2Proof/Machine/Ops.lean ====
section
/-! DEFINITION. The shared operations on the state: registers, the ways a step ends, the stack, taking a fault, and
`RESET`, the only way out of one. -/

namespace Sys2Proof.Machine

/-- What a meaning answers. -/
abbrev Result := Host.Outcome State Fault Refusal

/-- `V[x]` (10_state R10). -/
def State.reg (s : State) (x : Digit) : Byte := s.v[x.toNat]

/-- `V[x] <- b` (10_state R10). -/
def State.setReg (s : State) (x : Digit) (b : Byte) : State := { s with v := s.v.set x.toNat b }

/-- The register number of VF (10_state R11). -/
def vf : Digit := 0xF#4

/-- A result to `V[x]`, then a flag to VF: the flag is written last (10_state R14). -/
def State.setRegFlag (s : State) (x : Digit) (result flag : Byte) : State :=
  (s.setReg x result).setReg vf flag

/-- `V[0]` onward loaded from a list of bytes, register by register; registers past its end keep their value
(index_memory R135). -/
def State.setRegs (s : State) (bytes : List Byte) : State :=
  { s with v := Vector.ofFn fun k : Fin 16 => bytes.getD k.val s.v[k.val] }

/-- `I <- a` (10_state R12). -/
def State.setIndex (s : State) (a : Word) : State := { s with index := a }

/-- `DT <- b` (10_state R19). -/
def State.setDt (s : State) (b : Byte) : State := { s with dt := b }

/-- `ST <- b` (10_state R20). -/
def State.setSt (s : State) (b : Byte) : State := { s with st := b }

/-- A new frame buffer (10_state R21). -/
def State.setDisp (s : State) (d : Vector (BitVec 64) 32) : State := { s with disp := d }

/-- A new memory (10_state R24). -/
def State.setMem (s : State) (m : Memory) : State := { s with mem := m }

/-- `npc`, the address of the next sequential instruction (10_state R15). -/
def State.npc (s : State) : Word := s.pc + 2#16

/-- The step ends with PC = target and outputs `redraw = NoChange` (00_scope R7, R8). -/
def State.goTo (s : State) (target : Word) : State := { s with pc := target, redraw := .noChange }

/-- The step ends with PC = npc (00_scope R8). -/
def State.advance (s : State) : State := s.goTo s.npc

/-- `if cond then skip`: PC = npc + 2 when the condition holds, else npc (41_skips R94). -/
def State.skipIf (s : State) (cond : Bool) : State :=
  s.goTo (if cond then s.npc + 2#16 else s.npc)

/-- `redraw <- 1` (00_scope R7). -/
def State.signalRedraw (s : State) : State := { s with redraw := .redrawNeeded }

/-- `SP`, the stack cursor, -1 to 15 (10_state R18). -/
def State.sp (s : State) : Int := (s.stackUsed.val : Int) - 1

/-- The push of `CALL`: below a full stack, `SP <- SP + 1` and `STACK[SP] <- target`; on a full one nothing (R18, R82). -/
def State.push (s : State) (target : Word) : State :=
  if h : s.stackUsed.val < 16 then
    { s with stack := s.stack.set s.stackUsed.val target, stackUsed := ⟨s.stackUsed.val + 1, by omega⟩ }
  else s

/-- `STACK[SP]`, the entry `RET` reads; none when the stack is empty (R18, R83). -/
def State.top (s : State) : Option Word :=
  if h : s.stackUsed.val = 0 then none else some (s.stack[s.stackUsed.val - 1]'(by omega))

/-- `SP <- SP - 1`; the entry is not cleared (R17, R18). Nothing on an empty stack. -/
def State.pop (s : State) : State := { s with stackUsed := ⟨s.stackUsed.val - 1, by omega⟩ }

/-- TAKING A FAULT (60_exceptions R174): `FAULT <- code` and nothing else; the step outputs `redraw = NoChange`. There is no
handler, no saved register and no mode (R174, R178). -/
def State.takeFault (s : State) (code : FaultLatch) : State :=
  { s with fault := code, redraw := .noChange }

/-- The code of a fault in `FAULT` (60_exceptions R170). -/
def faultCode : FaultLatch → BitVec 2
  | .noFault => 0#2
  | .fetchRange => 1#2
  | .memRange => 2#2

/-- The memory after `RESET`: 0 everywhere but the glyph table, which holds the 80 bytes of the argument (70_reset R200). -/
def resetMemory (glyphRom : Vector Byte 80) : Memory :=
  Memory.writeBytes [] Config.glyphBase glyphRom.toList

/-- The `RESET(variant, glyph_rom)` event (70_reset R200): every piece of the core's state to its reset value. THE ONLY RETURN
FROM A FAULT (60_exceptions R175): there is no return-from-exception instruction. The host's own plan stays. -/
def State.resetEvent (s : State) (variant : Variant) (glyphRom : Vector Byte 80) : State :=
  { State.reset with
    mem := resetMemory glyphRom
    variant := variant
    inputs := s.inputs
    schedule := s.schedule
    draws := s.draws }

end Sys2Proof.Machine
end

