-- ==== Sys2Proof/Machine/Operands.lean ====
section
/-! DEFINITION. The operand forms: the values an instruction reads before it writes anything (10_state R14). -/

namespace Sys2Proof.Machine

/-- The operand of `SHR` and `SHL`: `V[y]` in Legacy, `V[x]` in Modern (43_alu R117, R119). -/
def State.shiftOperand (s : State) (x y : Digit) : Byte :=
  match s.variant with
  | .legacy => s.reg y
  | .modern => s.reg x

/-- `nnn` as an address or a value for I: zero-extended, never scaled (30_encoding R65). -/
def zext16 (nnn : Addr12) : Word := nnn.setWidth 16

/-- The register `JPV` adds: `V[0]` in Legacy, `V[x]` with x the top digit of nnn in Modern (40_control R84). -/
def State.jumpOffset (s : State) (nnn : Addr12) : Byte :=
  match s.variant with
  | .legacy => s.reg 0x0#4
  | .modern => s.reg (nnn.extractLsb' 8 4)

/-- The target of `JPV`: a 16-bit sum, not cut to 12 bits (40_control R84). -/
def State.jpvTarget (s : State) (nnn : Addr12) : Word :=
  zext16 nnn + (s.jumpOffset nnn).setWidth 16

/-- Key number `k` is held: a number above 15 names no key, so it is never held (46_keypad R156). -/
def State.keyHeld (s : State) (k : Byte) : Bool :=
  decide (k.toNat ≤ 15) && s.inputs.keys.getLsbD k.toNat

/-- The address of the glyph of a value: 0x050 + 5 * value, the whole byte and not its low digit (44_index_memory R132). -/
def glyphAddress (b : Byte) : Word := 0x0050#16 + 5#16 * b.setWidth 16

/-- `V[0]` to `V[x]`, the bytes `STM` stores, in ascending order (44_index_memory R134). -/
def State.regsTo (s : State) (x : Digit) : List Byte := s.v.toList.take (x.toNat + 1)

/-- The address an access through I begins at, as an unbounded number (44_index_memory R136). -/
def State.indexAddr (s : State) : Nat := s.index.toNat

/-- The decimal digits of a byte: hundreds, tens, ones (44_index_memory R133). -/
def bcdDigits (b : Byte) : List Byte :=
  [BitVec.ofNat 8 (b.toNat / 100), BitVec.ofNat 8 (b.toNat / 10 % 10), BitVec.ofNat 8 (b.toNat % 10)]

/-- `I <- I + x + 1` after a block transfer in Legacy; I unchanged in Modern (44_index_memory R134, R135). -/
def State.indexAfterBlock (s : State) (x : Digit) : Word :=
  match s.variant with
  | .legacy => s.index + (x.setWidth 16 + 1#16)
  | .modern => s.index

/-- The anchor column of a sprite: `V[x] mod 64` (45_display R141). -/
def State.anchorCol (s : State) (x : Digit) : Nat := (s.reg x).toNat % 64

/-- The anchor row of a sprite: `V[y] mod 32` (45_display R141). -/
def State.anchorRow (s : State) (y : Digit) : Nat := (s.reg y).toNat % 32

end Sys2Proof.Machine
end

