-- ==== Sys2Proof/Machine/Flags.lean ====
section
/-! DEFINITION. Every flag computation: the value written to VF is 0x00 or 0x01 (43_alu R110, 10_state R11). -/

namespace Sys2Proof.Machine

/-- A flag as the byte VF receives (43_alu R110). -/
def flagByte (b : Bool) : Byte := if b then 0x01#8 else 0x00#8

/-- Carry: the unsigned sum exceeds 255 (43_alu R110, R115). -/
def carryFlag (a b : Byte) : Byte := flagByte (decide (a.toNat + b.toNat > 255))

/-- No borrow in `a - b`: a is at least b (43_alu R110, R116, R118). -/
def noBorrowFlag (a b : Byte) : Byte := flagByte (decide (b.toNat ≤ a.toNat))

/-- The bit a right shift by one moves out: bit 0 (43_alu R110, R117). -/
def bitOutRight (t : Byte) : Byte := flagByte (t.getLsbD 0)

/-- The bit a left shift by one moves out: bit 7 (43_alu R110, R119). -/
def bitOutLeft (t : Byte) : Byte := flagByte (t.getLsbD 7)

/-- `OR`, `AND`, `XOR`: the result to `V[x]`, then VF := 0 in Legacy only (43_alu R112 to R114). -/
def State.setLogic (s : State) (x : Digit) (result : Byte) : State :=
  match s.variant with
  | .legacy => s.setRegFlag x result 0x00#8
  | .modern => s.setReg x result

end Sys2Proof.Machine
end

