-- ==== Sys2Proof/Machine/Alu.lean ====
section
/-! DEFINITION. Register-to-register operations of class 8 (43_alu R110 to R120): both operands are read first, the result
is written to `V[x]`, the flag to VF last (R120). -/

namespace Sys2Proof.Machine

/-- `MOV Vx, Vy` (R111). -/
def execMov (x y : Digit) (s : State) : Result := .next (s.setReg x (s.reg y)).advance

/-- `OR Vx, Vy` (R112). -/
def execOr (x y : Digit) (s : State) : Result := .next (s.setLogic x (s.reg x ||| s.reg y)).advance

/-- `AND Vx, Vy` (R113). -/
def execAnd (x y : Digit) (s : State) : Result := .next (s.setLogic x (s.reg x &&& s.reg y)).advance

/-- `XOR Vx, Vy` (R114). -/
def execXor (x y : Digit) (s : State) : Result := .next (s.setLogic x (s.reg x ^^^ s.reg y)).advance

/-- `ADDR Vx, Vy` (R115). -/
def execAddr (x y : Digit) (s : State) : Result :=
  .next (s.setRegFlag x (s.reg x + s.reg y) (carryFlag (s.reg x) (s.reg y))).advance

/-- `SUB Vx, Vy` (R116). -/
def execSub (x y : Digit) (s : State) : Result :=
  .next (s.setRegFlag x (s.reg x - s.reg y) (noBorrowFlag (s.reg x) (s.reg y))).advance

/-- `SHR Vx, Vy` (R117). -/
def execShr (x y : Digit) (s : State) : Result :=
  .next (s.setRegFlag x (s.shiftOperand x y >>> 1) (bitOutRight (s.shiftOperand x y))).advance

/-- `SUBN Vx, Vy` (R118). -/
def execSubn (x y : Digit) (s : State) : Result :=
  .next (s.setRegFlag x (s.reg y - s.reg x) (noBorrowFlag (s.reg y) (s.reg x))).advance

/-- `SHL Vx, Vy` (R119). -/
def execShl (x y : Digit) (s : State) : Result :=
  .next (s.setRegFlag x (s.shiftOperand x y <<< 1) (bitOutLeft (s.shiftOperand x y))).advance

end Sys2Proof.Machine
end

