-- ==== Sys2Proof/Machine/Control.lean ====
section
/-! DEFINITION. Control transfer: `JP`, `CALL`, `RET`, `JPV` (40_control R80 to R84). -/

namespace Sys2Proof.Machine

/-- `JP nnn` (R81). -/
def execJp (nnn : Addr12) (s : State) : Result := .next (s.goTo (zext16 nnn))

/-- `CALL nnn` (R82): the push is dropped on a full stack, the jump is taken in both cases. -/
def execCall (nnn : Addr12) (s : State) : Result := .next ((s.push s.npc).goTo (zext16 nnn))

/-- `RET` (R83): on an empty stack the step ends at npc like a no-op. -/
def execRet (_ignored : Digit) (s : State) : Result :=
  match s.top with
  | some target => .next (s.pop.goTo target)
  | none => .next s.advance

/-- `JPV nnn` (R84). -/
def execJpv (nnn : Addr12) (s : State) : Result := .next (s.goTo (s.jpvTarget nnn))

end Sys2Proof.Machine
end

