-- ==== Sys2Proof/Machine/Sprite.lean ====
section
/-! DEFINITION. The sprite XOR-blit unit and its collision detector (45_display R141 to R143). A row of the frame buffer is
64 bits, column 0 the most significant. -/

namespace Sys2Proof.Machine

/-- `DISP[r][c]`; false outside the display (10_state R21). -/
def State.pixel (s : State) (r c : Nat) : Bool := (s.disp[r]?.getD 0#64).getMsbD c

/-- One sprite byte as a row of the display, bit 7 at column `px`; the columns beyond 63 are dropped, not wrapped
(45_display R141, R142). -/
def spriteRow (px : Nat) (b : Byte) : BitVec 64 := (b.setWidth 64 <<< 56) >>> px

/-- What a sprite of the given bytes, anchored at column `px` and row `py`, XORs into display row `r`: sprite row `r - py`, or
nothing above and below the sprite (45_display R141). -/
def spriteMask (bytes : List Byte) (px py r : Nat) : BitVec 64 :=
  if py ≤ r then spriteRow px (bytes.getD (r - py) 0x00#8) else 0#64

/-- The frame buffer with the sprite XORed in; sprite rows beyond 31 are dropped, not wrapped (45_display R141). -/
def blit (disp : Vector (BitVec 64) 32) (bytes : List Byte) (px py : Nat) : Vector (BitVec 64) 32 :=
  Vector.ofFn fun r : Fin 32 => disp[r.val] ^^^ spriteMask bytes px py r.val

/-- The collision detector: some lit pixel meets a set sprite bit that is drawn (45_display R143). -/
def collides (disp : Vector (BitVec 64) 32) (bytes : List Byte) (px py : Nat) : Bool :=
  (List.range 32).any fun r => (disp[r]?.getD 0#64 &&& spriteMask bytes px py r) != 0#64

/-- The cleared frame buffer (45_display R140). -/
def clearDisp : Vector (BitVec 64) 32 := Vector.replicate 32 0#64

end Sys2Proof.Machine
end

