-- ==== Sys2Proof/Machine/Display.lean ====
section
/-! DEFINITION. The display instructions `CLS` and `DRW` (45_display R140, R141). -/

namespace Sys2Proof.Machine

/-- `CLS` (R140). -/
def execCls (_ignored : Digit) (s : State) : Result := .next (s.setDisp clearDisp).advance.signalRedraw

/-- `DRW Vx, Vy, n` (R141): the coordinates are read before VF is written, the range check covers all n rows, and VF is
written last. -/
def execDrw (x y n : Digit) (s : State) : Result :=
  match s.mem.readRange s.indexAddr n.toNat with
  | some bytes =>
    .next ((s.setDisp (blit s.disp bytes (s.anchorCol x) (s.anchorRow y))).setReg vf
      (flagByte (collides s.disp bytes (s.anchorCol x) (s.anchorRow y)))).advance.signalRedraw
  | none => .next (s.takeFault .memRange)

end Sys2Proof.Machine
end

