-- ==== Sys2Proof/Machine/Immediate.lean ====
section
/-! DEFINITION. Immediate load, immediate add and random: `LD`, `ADD`, `RND` (42_immediate_random R100 to R102). -/

namespace Sys2Proof.Machine

/-- `LD Vx, nn` (R100). -/
def execLd (x : Digit) (nn : Byte) (s : State) : Result := .next (s.setReg x nn).advance

/-- `ADD Vx, nn` (R101): wraps modulo 256, no flag. -/
def execAdd (x : Digit) (nn : Byte) (s : State) : Result := .next (s.setReg x (s.reg x + nn)).advance

/-- `RND Vx, nn` (R102): the random byte is an input of the step. -/
def execRnd (x : Digit) (nn : Byte) (s : State) : Result := .next (s.setReg x (s.inputs.rnd &&& nn)).advance

end Sys2Proof.Machine
end

