-- ==== Sys2Proof/Machine/IndexMemory.lean ====
section
/-! DEFINITION. The index register and memory transfer: `LDI`, `ADDI`, `LDF`, `BCD`, `STM`, `LDM` (44_index_memory R130 to
R136). The whole range is checked before any byte moves; outside memory the step takes `MemRange` and changes nothing
else (60_exceptions R172, R174). -/

namespace Sys2Proof.Machine

/-- `LDI nnn` (R130). -/
def execLdi (nnn : Addr12) (s : State) : Result := .next (s.setIndex (zext16 nnn)).advance

/-- `ADDI Vx` (R131): modulo 65536, no flag. -/
def execAddi (x : Digit) (s : State) : Result :=
  .next (s.setIndex (s.index + (s.reg x).setWidth 16)).advance

/-- `LDF Vx` (R132). -/
def execLdf (x : Digit) (s : State) : Result := .next (s.setIndex (glyphAddress (s.reg x))).advance

/-- `BCD Vx` (R133). -/
def execBcd (x : Digit) (s : State) : Result :=
  match s.mem.writeRange s.indexAddr (bcdDigits (s.reg x)) with
  | some m => .next (s.setMem m).advance
  | none => .next (s.takeFault .memRange)

/-- `STM Vx` (R134). -/
def execStm (x : Digit) (s : State) : Result :=
  match s.mem.writeRange s.indexAddr (s.regsTo x) with
  | some m => .next ((s.setMem m).setIndex (s.indexAfterBlock x)).advance
  | none => .next (s.takeFault .memRange)

/-- `LDM Vx` (R135). -/
def execLdm (x : Digit) (s : State) : Result :=
  match s.mem.readRange s.indexAddr (x.toNat + 1) with
  | some bytes => .next ((s.setRegs bytes).setIndex (s.indexAfterBlock x)).advance
  | none => .next (s.takeFault .memRange)

end Sys2Proof.Machine
end

