-- ==== Sys2Proof/Machine/KeypadTimers.lean ====
section
/-! DEFINITION. Keypad and timer instructions: `SKP`, `SKNP`, `LDVDT`, `LDK`, `LDDT`, `LDST` (46_keypad_timers R150 to R156). -/

namespace Sys2Proof.Machine

/-- `SKP Vx` (R150). -/
def execSkp (x : Digit) (s : State) : Result := .next (s.skipIf (s.keyHeld (s.reg x)))

/-- `SKNP Vx` (R151). -/
def execSknp (x : Digit) (s : State) : Result := .next (s.skipIf (!s.keyHeld (s.reg x)))

/-- `LDVDT Vx` (R152). -/
def execLdvdt (x : Digit) (s : State) : Result := .next (s.setReg x s.dt).advance

/-- `LDK Vx` (R153): with no press reported the PC stays and the instruction is fetched again next step. -/
def execLdk (x : Digit) (s : State) : Result :=
  .next (match s.inputs.lastKey with
    | some k => (s.setReg x (k.setWidth 8)).advance
    | none => s.goTo s.pc)

/-- `LDDT Vx` (R154). -/
def execLddt (x : Digit) (s : State) : Result := .next (s.setDt (s.reg x)).advance

/-- `LDST Vx` (R155). -/
def execLdst (x : Digit) (s : State) : Result := .next (s.setSt (s.reg x)).advance

end Sys2Proof.Machine
end

