-- ==== Sys2Proof/Machine/Noops.lean ====
section
/-! DEFINITION. The unmatched encodings (47_noops R160 to R164): nothing changes but PC := PC + 2. -/

namespace Sys2Proof.Machine

/-- `SYS nnn` (R160). -/
def execSys (_nnn : Addr12) (s : State) : Result := .next s.advance

/-- `NOP8` (R161). -/
def execNop8 (_x _y _n : Digit) (s : State) : Result := .next s.advance

/-- `NOPE` (R162). -/
def execNope (_x : Digit) (_nn : Byte) (s : State) : Result := .next s.advance

/-- `NOPF` (R163). -/
def execNopf (_x : Digit) (_nn : Byte) (s : State) : Result := .next s.advance

end Sys2Proof.Machine
end

