-- ==== Sys2Proof/Machine/Skips.lean ====
section
/-! DEFINITION. Conditional skips on registers: `SE`, `SNE`, `SER`, `SNER` (41_skips R90 to R94). -/

namespace Sys2Proof.Machine

/-- `SE Vx, nn` (R90). -/
def execSe (x : Digit) (nn : Byte) (s : State) : Result := .next (s.skipIf (decide (s.reg x = nn)))

/-- `SNE Vx, nn` (R91). -/
def execSne (x : Digit) (nn : Byte) (s : State) : Result := .next (s.skipIf (decide (s.reg x ≠ nn)))

/-- `SER Vx, Vy` (R92). -/
def execSer (x y _ignored : Digit) (s : State) : Result := .next (s.skipIf (decide (s.reg x = s.reg y)))

/-- `SNER Vx, Vy` (R93). -/
def execSner (x y _ignored : Digit) (s : State) : Result := .next (s.skipIf (decide (s.reg x ≠ s.reg y)))

end Sys2Proof.Machine
end

