-- ==== Sys2Proof/Machine/Dispatch.lean ====
section
/-! DEFINITION. What each instruction does: one arm per constructor, one direct call of its meaning. -/

namespace Sys2Proof.Machine

def exec (i : Instr) (s : State) : Host.Outcome State Fault Refusal :=
  match i with
  | .cls d => Sys2Proof.Machine.execCls d s
  | .ret d => Sys2Proof.Machine.execRet d s
  | .sys nnn => Sys2Proof.Machine.execSys nnn s
  | .jp nnn => Sys2Proof.Machine.execJp nnn s
  | .call nnn => Sys2Proof.Machine.execCall nnn s
  | .se x nn => Sys2Proof.Machine.execSe x nn s
  | .sne x nn => Sys2Proof.Machine.execSne x nn s
  | .ser x y d => Sys2Proof.Machine.execSer x y d s
  | .ld x nn => Sys2Proof.Machine.execLd x nn s
  | .add x nn => Sys2Proof.Machine.execAdd x nn s
  | .mov x y => Sys2Proof.Machine.execMov x y s
  | .or x y => Sys2Proof.Machine.execOr x y s
  | .and x y => Sys2Proof.Machine.execAnd x y s
  | .xor x y => Sys2Proof.Machine.execXor x y s
  | .addr x y => Sys2Proof.Machine.execAddr x y s
  | .sub x y => Sys2Proof.Machine.execSub x y s
  | .shr x y => Sys2Proof.Machine.execShr x y s
  | .subn x y => Sys2Proof.Machine.execSubn x y s
  | .shl x y => Sys2Proof.Machine.execShl x y s
  | .nop8 x y n => Sys2Proof.Machine.execNop8 x y n s
  | .sner x y d => Sys2Proof.Machine.execSner x y d s
  | .ldi nnn => Sys2Proof.Machine.execLdi nnn s
  | .jpv nnn => Sys2Proof.Machine.execJpv nnn s
  | .rnd x nn => Sys2Proof.Machine.execRnd x nn s
  | .drw x y n => Sys2Proof.Machine.execDrw x y n s
  | .skp x => Sys2Proof.Machine.execSkp x s
  | .sknp x => Sys2Proof.Machine.execSknp x s
  | .nope x nn => Sys2Proof.Machine.execNope x nn s
  | .ldvdt x => Sys2Proof.Machine.execLdvdt x s
  | .ldk x => Sys2Proof.Machine.execLdk x s
  | .lddt x => Sys2Proof.Machine.execLddt x s
  | .ldst x => Sys2Proof.Machine.execLdst x s
  | .addi x => Sys2Proof.Machine.execAddi x s
  | .ldf x => Sys2Proof.Machine.execLdf x s
  | .bcd x => Sys2Proof.Machine.execBcd x s
  | .stm x => Sys2Proof.Machine.execStm x s
  | .ldm x => Sys2Proof.Machine.execLdm x s
  | .nopf x nn => Sys2Proof.Machine.execNopf x nn s

end Sys2Proof.Machine
end

