-- ==== Sys2Proof/Machine/Events.lean ====
section
/-! DEFINITION. The four events of 10_state R30: `STEP` (fetch, decode, execute; R15), `TICK` (60_exceptions R180), `LOAD`
(70_reset R203, R204) and `RESET` (`State.resetEvent`); and the host's turn between two steps. -/

namespace Sys2Proof.Machine

/-- Instruction fetch (20_memory R41, R42): the two bytes at PC and PC + 1, none iff PC > 0xFFE. -/
def State.fetch (s : State) : Option (List Byte) := s.mem.readRange s.pc.toNat 2

/-- A `STEP` on a stopped machine (60_exceptions R174): no effect; its output is `NoChange` (log entry 7). -/
def State.stoppedStep (s : State) : State := { s with redraw := .noChange }

/-- After the first `STEP` no `LOAD` is admitted (70_reset R203). -/
def State.closeLoad (s : State) : State := { s with loadable := false }

/-- A change of the state after an outcome that goes on. -/
def onNext (f : State → State) : Result → Result
  | .next t => .next (f t)
  | .fault r => .fault r
  | .refused r => .refused r

/-- Lines 1 to 6 of 10_state R15 on a running machine: the fetch check first (60_exceptions R177), then the decoded
instruction. -/
def fetchExec (s : State) : Result :=
  match s.fetch with
  | none => .next (s.takeFault .fetchRange)
  | some bytes =>
    match decode bytes with
    | .ok (i, _) => exec i s
    | .error .truncated => .fault .shortFetch

/-- A `STEP` by the latch: a running machine runs one instruction, a stopped one does nothing (60_exceptions R174). -/
def latchedStep (s : State) : Result :=
  match s.fault with
  | .noFault => fetchExec s
  | .fetchRange => .next s.stoppedStep
  | .memRange => .next s.stoppedStep

/-- The `STEP` event with the snapshot `s.inputs` (10_state R15); after it no `LOAD` is admitted. -/
def stepEvent (s : State) : Result := onNext State.closeLoad (latchedStep s)

/-- A timer counts down while nonzero and never wraps (60_exceptions R180). -/
def countDown (b : Byte) : Byte := if b = 0x00#8 then 0x00#8 else b - 0x01#8

/-- The `TICK` event: both timers, and nothing else; it goes on in the faulted state (60_exceptions R180, R174). -/
def State.tick (s : State) : State := { s with dt := countDown s.dt, st := countDown s.st }

/-- A timer after some number of `TICK` events. -/
def countDownBy : Nat → Byte → Byte
  | 0, b => b
  | n + 1, b => countDownBy n (countDown b)

/-- Some number of `TICK` events in a row (`State.ticks_succ` in Laws/Events.lean: one after the other). -/
def State.ticks (n : Nat) (s : State) : State :=
  { s with dt := countDownBy n s.dt, st := countDownBy n s.st }

/-- The host's next turn: the one the schedule decides, else a free value (log entry 6). -/
def State.nextTurn (s : State) : HostTurn :=
  match s.schedule with
  | turn :: _ => turn
  | [] => Config.freeTurn s.draws

/-- The state once that turn is taken from the schedule, or drawn. -/
def State.popTurn (s : State) : State :=
  match s.schedule with
  | _ :: rest => { s with schedule := rest }
  | [] => { s with draws := s.draws + 1 }

/-- A new snapshot for the next step (10_state R31). -/
def State.setInputs (s : State) (inputs : Inputs) : State := { s with inputs := inputs }

/-- What the host does between two steps: any number of `TICK` events (60_exceptions R181), and a fresh snapshot. -/
def State.hostTurn (s : State) : State :=
  State.ticks s.nextTurn.ticks (s.popTurn.setInputs s.nextTurn.inputs)

/-- The `LOAD(bytes)` event (70_reset R203): the image verbatim from 0x200; a longer one than 3584 bytes is refused (R204), and so
is a second `LOAD` or one after the first `STEP`. -/
def loadEvent (bytes : List Byte) (s : State) : Result :=
  if bytes.length > Config.progMax then .refused .imageTooLong
  else if s.loadable then .next ((s.setMem (s.mem.writeBytes Config.progBase bytes)).closeLoad)
  else .refused .loadNotAdmitted

/-- The events of 10_state R30. -/
inductive HostEvent where
  | reset (variant : Variant) (glyphRom : Vector Byte 80)
  | load (bytes : List Byte)
  | step (inputs : Inputs)
  | tick
deriving DecidableEq, Repr

/-- What the core does on one event (10_state R30). -/
def deliver (e : HostEvent) (s : State) : Result :=
  match e with
  | .reset variant glyphRom => .next (s.resetEvent variant glyphRom)
  | .load bytes => loadEvent bytes s
  | .step inputs => stepEvent (s.setInputs inputs)
  | .tick => .next s.tick

/-- Events in order, up to the first that has no next state. -/
def deliverAll : List HostEvent → State → Result
  | [], s => .next s
  | e :: es, s =>
    match deliver e s with
    | .next t => deliverAll es t
    | .fault r => .fault r
    | .refused r => .refused r

/-- The STEP event, then the host's turn before the next one. -/
def stepThenHost (s : State) : Result := onNext State.hostTurn (stepEvent s)

/-- A machine ready to fetch: running, and its PC at the program base if it was beyond the last fetch address. -/
def State.readyToFetch (s : State) : State :=
  { s with
    fault := .noFault
    pc := if s.pc.toNat + 2 ≤ Config.memSize then s.pc else 0x0200#16 }

end Sys2Proof.Machine
end

