-- ==== Sys2Proof/Machine/Step.lean ====
section
/-! DEFINITION. The step of the fixed interface: one `STEP` event (10_state R15) with the snapshot in `inputs`, followed by the
host's turn before the next step (log entry 6); and where the next instruction is fetched. -/

namespace Sys2Proof.Machine

/-- One `STEP` event, then any number of `TICK` events and a fresh snapshot (10_state R30, R31, 60_exceptions R181). -/
def step (s : State) : Host.Outcome State Fault Refusal := stepThenHost s

/-- `s` with an instruction stored where `step` fetches next: at PC, high byte first. Where no fetch can happen (a latched
fault, a PC above 0xFFE) the latch is cleared and the PC set to 0x200 (log entry 8). -/
def State.withFetchWord (s : State) (nbits w : Nat) : State :=
  s.readyToFetch.setMem
    (s.mem.writeBytes s.readyToFetch.pc.toNat (bytesOfWord (tableWord nbits w)))

end Sys2Proof.Machine
end

