-- ==== Sys2Proof/Safety.lean ====
section
/-! DEFINITION. What counts as a safe run, and the stable end of a program (60_exceptions R174, R186). -/

namespace Sys2Proof.Machine

/-- The machine runs: no fault is latched. A run that reaches another state has gone wrong (60_exceptions R174). -/
def State.running (s : State) : Prop := s.fault = .noFault

/-- A stable end at address `a` (60_exceptions R186): running, PC = a, a fetchable, and the word there is `JP a`. -/
def State.stableEnd (s : State) (a : Addr12) : Prop :=
  s.fault = .noFault ∧ s.pc = zext16 a ∧ a.toNat ≤ 0xFFE ∧
    s.mem.read a.toNat = 0x1#4 ++ (a.extractLsb' 8 4) ∧ s.mem.read (a.toNat + 1) = a.extractLsb' 0 8

/-- The bound on addresses that the rules maintain (10_state R13): PC at most 0x10FE, the largest `JPV` sum, and every stack
entry at most 0x1000, the npc of a `CALL` at 0xFFE. -/
def State.pcBounded (s : State) : Prop :=
  s.pc.toNat ≤ 0x10FE ∧ ∀ k : Fin 16, s.stack[k.val].toNat ≤ 0x1000

/-- The memory is in its canonical form: no cell outside 0x000 to 0xFFF, one cell an address. -/
def State.memWf (s : State) : Prop := s.mem.wf = true

/-- The kinds of state beside the general registers, the PC and the step's output. -/
inductive Part where
  | index
  | stack
  | dt
  | st
  | disp
  | mem
  | fault
  | variant
  /-- The model's own host side: inputs, schedule, draws, loadable. -/
  | host
deriving DecidableEq, Repr

/-- `t` holds what `s` holds in one part; memory is compared byte by byte, at every address. -/
def State.keeps (s t : State) : Part → Prop
  | .index => t.index = s.index
  | .stack => t.stack = s.stack ∧ t.stackUsed = s.stackUsed
  | .dt => t.dt = s.dt
  | .st => t.st = s.st
  | .disp => t.disp = s.disp
  | .mem => ∀ a, t.mem.read a = s.mem.read a
  | .fault => t.fault = s.fault
  | .variant => t.variant = s.variant
  | .host => t.inputs = s.inputs ∧ t.schedule = s.schedule ∧ t.draws = s.draws ∧ t.loadable = s.loadable

/-- The frame of a step: only the listed registers and parts may change, with the PC and the step's output. -/
def State.frame (s t : State) (regs : List Digit) (parts : List Part) : Prop :=
  (∀ k : Digit, k ∉ regs → t.reg k = s.reg k) ∧ ∀ p : Part, p ∉ parts → s.keeps t p

/-- Every byte outside the `n` bytes from `lo` reads as before. -/
def State.sameBytesOutside (s t : State) (lo n : Nat) : Prop :=
  ∀ a, a < lo ∨ lo + n ≤ a → t.mem.read a = s.mem.read a

/-- `t` is `s` after taking a fault (60_exceptions R174): the latch holds the code, the output is `NoChange`, and everything else
is as before, the PC included. -/
def State.faultedOnly (s t : State) (code : FaultLatch) : Prop :=
  t.fault = code ∧ t.redraw = .noChange ∧ t.pc = s.pc ∧ t.v = s.v ∧ t.mem = s.mem ∧
    s.frame t [] [.fault]

/-- The bit a sprite of `n` rows at `lo`, anchored at column `px` and row `py`, sets at row `r` and column `c` of the display
(45_display R141, R142): a sprite row r - py below n and a sprite column c - px below 8, bit 7 leftmost. -/
def State.spriteBit (s : State) (lo n px py r c : Nat) : Bool :=
  decide (py ≤ r ∧ r < py + n ∧ px ≤ c ∧ c < px + 8) && (s.mem.read (lo + (r - py))).getLsbD (7 - (c - px))

/-- PC = PC + 2 and `redraw = NoChange`, how a step ends unless its rule says otherwise (00_scope R8). -/
def State.endsNext (s t : State) : Prop := t.pc = s.pc + 2#16 ∧ t.redraw = .noChange

/-- How a skip ends: PC + 4 when the condition holds, else PC + 2; `NoChange`, and nothing else changes (41_skips R94). -/
def State.endsSkip (s t : State) (cond : Prop) : Prop :=
  (cond → t.pc = s.pc + 4#16) ∧ (¬ cond → t.pc = s.pc + 2#16) ∧ t.redraw = .noChange ∧ s.frame t [] []

/-- The registers an instruction may write in a variant: its destination, VF where it writes the flag, V0 to Vx for `LDM`
(10_state R10, R11). -/
def regsWritten (v : Variant) : Instr → List Digit
  | .cls _ => []
  | .ret _ => []
  | .sys _ => []
  | .jp _ => []
  | .call _ => []
  | .se _ _ => []
  | .sne _ _ => []
  | .ser _ _ _ => []
  | .ld x _ => [x]
  | .add x _ => [x]
  | .mov x _ => [x]
  | .or x _ => if v = .legacy then [x, vf] else [x]
  | .and x _ => if v = .legacy then [x, vf] else [x]
  | .xor x _ => if v = .legacy then [x, vf] else [x]
  | .addr x _ => [x, vf]
  | .sub x _ => [x, vf]
  | .shr x _ => [x, vf]
  | .subn x _ => [x, vf]
  | .shl x _ => [x, vf]
  | .nop8 _ _ _ => []
  | .sner _ _ _ => []
  | .ldi _ => []
  | .jpv _ => []
  | .rnd x _ => [x]
  | .drw _ _ _ => [vf]
  | .skp _ => []
  | .sknp _ => []
  | .nope _ _ => []
  | .ldvdt x => [x]
  | .ldk x => [x]
  | .lddt _ => []
  | .ldst _ => []
  | .addi _ => []
  | .ldf _ => []
  | .bcd _ => []
  | .stm _ => []
  | .ldm x => (List.range (x.toNat + 1)).map (BitVec.ofNat 4)
  | .nopf _ _ => []

/-- The other state an instruction may write in a variant (the tables of 10_state section 1 and 20_memory R45; `FAULT` by the
four instructions of 60_exceptions R170). -/
def partsWritten (v : Variant) : Instr → List Part
  | .cls _ => [.disp]
  | .ret _ => [.stack]
  | .sys _ => []
  | .jp _ => []
  | .call _ => [.stack]
  | .se _ _ => []
  | .sne _ _ => []
  | .ser _ _ _ => []
  | .ld _ _ => []
  | .add _ _ => []
  | .mov _ _ => []
  | .or _ _ => []
  | .and _ _ => []
  | .xor _ _ => []
  | .addr _ _ => []
  | .sub _ _ => []
  | .shr _ _ => []
  | .subn _ _ => []
  | .shl _ _ => []
  | .nop8 _ _ _ => []
  | .sner _ _ _ => []
  | .ldi _ => [.index]
  | .jpv _ => []
  | .rnd _ _ => []
  | .drw _ _ _ => [.disp, .fault]
  | .skp _ => []
  | .sknp _ => []
  | .nope _ _ => []
  | .ldvdt _ => []
  | .ldk _ => []
  | .lddt _ => [.dt]
  | .ldst _ => [.st]
  | .addi _ => [.index]
  | .ldf _ => [.index]
  | .bcd _ => [.mem, .fault]
  | .stm _ => if v = .legacy then [.mem, .fault, .index] else [.mem, .fault]
  | .ldm _ => if v = .legacy then [.fault, .index] else [.fault]
  | .nopf _ _ => []

end Sys2Proof.Machine
end

