-- ==== Sys2Proof/Certificates/Slice0/Obligations.lean ====
section
/-! DEFINITION. The statements for the provers: what each instruction, each event and the whole machine do, as the rules of
spec/ say it. A statement whose clauses rest on a decision the spec marks as its own (D1 to D34 of 92_eei_decisions) has
basis 'derived' and says so. -/

open Sys2Proof Sys2Proof.Machine

/-! ### Control transfer (40_control_flow) -/

/-- R81: the words 1nnn; `pc <- zext_16(nnn)`, nothing else. -/
def Obligations.JumpGoesToItsAddress : Prop :=
  ∀ (nnn : Addr12) (s : State), decodeWord (wordNNN 0x1#4 nnn) = .jp nnn ∧ ∃ t, exec (.jp nnn) s = .next t ∧
    t.pc.toNat = nnn.toNat ∧ t.redraw = .noChange ∧ s.frame t [] []

/-- R82: the words 2nnn; below a full stack SP rises by one and the new top entry is PC + 2, every other entry unchanged; on a full stack SP
and the stack are unchanged; the jump is taken in both cases. -/
def Obligations.CallPushesAndJumps : Prop :=
  ∀ (nnn : Addr12) (s : State), decodeWord (wordNNN 0x2#4 nnn) = .call nnn ∧ ∃ t, exec (.call nnn) s = .next t ∧
    t.pc.toNat = nnn.toNat ∧ t.redraw = .noChange ∧
    (s.sp < 15 → t.sp = s.sp + 1 ∧
      ∀ k : Fin 16, ((k.val : Int) = s.sp + 1 → t.stack[k.val] = s.pc + 2#16) ∧
        ((k.val : Int) ≠ s.sp + 1 → t.stack[k.val] = s.stack[k.val])) ∧
    (s.sp = 15 → t.sp = 15 ∧ t.stack = s.stack) ∧
    s.frame t [] [.stack]

/-- R83: the words 0_EE, bits 11:8 ignored; with an entry on the stack the PC becomes `STACK[SP]` and SP falls by one, the
entry not cleared; on an empty stack the step ends at PC + 2. -/
def Obligations.ReturnPopsOrFallsThrough : Prop :=
  ∀ (d : Digit) (s : State), decodeWord (wordXNN 0x0#4 d 0xEE#8) = .ret d ∧ ∃ t, exec (.ret d) s = .next t ∧
    t.redraw = .noChange ∧ t.stack = s.stack ∧
    (∀ k : Fin 16, (k.val : Int) = s.sp → t.pc = s.stack[k.val] ∧ t.sp = s.sp - 1) ∧
    (s.sp = -1 → t.pc = s.pc + 2#16 ∧ t.sp = -1) ∧
    s.frame t [] [.stack]

/-- 40_control_flow: a `RET` after a `CALL` that found space comes back to the instruction after the `CALL`, with SP as
before it. -/
def Obligations.CallThenReturnComesBack : Prop :=
  ∀ (nnn : Addr12) (d : Digit) (s : State), s.sp < 15 →
    ∃ t u, exec (.call nnn) s = .next t ∧ exec (.ret d) t = .next u ∧
      u.pc = s.pc + 2#16 ∧ u.sp = s.sp ∧ s.frame u [] [.stack]

/-- 40_control_flow, `JPV`: nnn plus V0 (Legacy) or plus the register its top digit names (Modern). That the sum is kept at 16
bits is the spec's own decision D5. -/
def Obligations.JumpWithOffsetAddsRegister : Prop :=
  ∀ (nnn : Addr12) (s : State), ∃ t, exec (.jpv nnn) s = .next t ∧
    (s.variant = .legacy → t.pc.toNat = nnn.toNat + (s.reg 0x0#4).toNat) ∧
    (s.variant = .modern → t.pc.toNat = nnn.toNat + (s.reg (nnn.extractLsb' 8 4)).toNat) ∧
    t.redraw = .noChange ∧ s.frame t [] []

/-! ### Skips (41_skips) -/

/-- R90, R91, R92, R93: the words 3xnn, 4xnn, 5xy_, 9xy_; PC + 4 when the condition holds, else PC + 2, and nothing else, whatever the ignored digit. -/
def Obligations.RegisterSkips : Prop :=
  ∀ (x y d : Digit) (nn : Byte) (s : State),
    (decodeWord (wordXNN 0x3#4 x nn) = .se x nn ∧ decodeWord (wordXNN 0x4#4 x nn) = .sne x nn ∧
      decodeWord (wordXYN 0x5#4 x y d) = .ser x y d ∧ decodeWord (wordXYN 0x9#4 x y d) = .sner x y d) ∧
    (∃ t, exec (.se x nn) s = .next t ∧ s.endsSkip t (s.reg x = nn)) ∧
    (∃ t, exec (.sne x nn) s = .next t ∧ s.endsSkip t (s.reg x ≠ nn)) ∧
    (∃ t, exec (.ser x y d) s = .next t ∧ s.endsSkip t (s.reg x = s.reg y)) ∧
    (∃ t, exec (.sner x y d) s = .next t ∧ s.endsSkip t (s.reg x ≠ s.reg y))

/-! ### Immediates and the random byte (42_immediate_random) -/

/-- R100, R101: the words 6xnn and 7xnn; `V[x] <- nn`, and `V[x] <- (V[x] + nn) mod 256` with no flag written, for every x, VF included. -/
def Obligations.ImmediateLoadAndAdd : Prop :=
  ∀ (x : Digit) (nn : Byte) (s : State),
    (decodeWord (wordXNN 0x6#4 x nn) = .ld x nn ∧ decodeWord (wordXNN 0x7#4 x nn) = .add x nn) ∧
    (∃ t, exec (.ld x nn) s = .next t ∧ t.reg x = nn ∧ s.endsNext t ∧ s.frame t [x] []) ∧
    (∃ t, exec (.add x nn) s = .next t ∧
      (t.reg x).toNat = ((s.reg x).toNat + nn.toNat) % 256 ∧ s.endsNext t ∧ s.frame t [x] [])

/-- 42_immediate_random, `RND`: bit for bit the random byte of this step AND nn, so a bit that is 0 in nn is 0 in the result.
That the byte is an input under no law is the spec's own decision D20. -/
def Obligations.RandomByteIsMasked : Prop :=
  ∀ (x : Digit) (nn : Byte) (s : State), ∃ t, exec (.rnd x nn) s = .next t ∧
    (∀ i : Nat, i < 8 → (t.reg x).getLsbD i = (s.inputs.rnd.getLsbD i && nn.getLsbD i)) ∧
    s.endsNext t ∧ s.frame t [x] []

/-! ### The ALU (43_alu) -/

/-- R111: the words 8xy0; `V[x] <- V[y]`, no flag, in both variants. -/
def Obligations.MoveCopiesRegister : Prop :=
  ∀ (x y : Digit) (s : State), decodeWord (wordXYN 0x8#4 x y 0x0#4) = .mov x y ∧ ∃ t, exec (.mov x y) s = .next t ∧
    t.reg x = s.reg y ∧ s.endsNext t ∧ s.frame t [x] []

/-- 43_alu, `OR`, `AND`, `XOR`: the bitwise result in `V[x]`, and VF cleared in Legacy only. That VF is cleared after the result
is written (x = 15, y = 15) is the spec's own decision D7. -/
def Obligations.LogicOpsAndVf : Prop :=
  ∀ (x y : Digit) (s : State),
    ∀ p ∈ [(Instr.or x y, s.reg x ||| s.reg y), (Instr.and x y, s.reg x &&& s.reg y),
        (Instr.xor x y, s.reg x ^^^ s.reg y)],
      ∃ t, exec p.1 s = .next t ∧
        (x ≠ vf ∨ s.variant = .modern → t.reg x = p.2) ∧
        (s.variant = .legacy → t.reg vf = 0x00#8) ∧
        (s.variant = .modern → s.frame t [x] []) ∧
        s.endsNext t ∧ s.frame t [x, vf] []

/-- 43_alu, `ADDR`: the sum modulo 256 and the carry. That for x = 15 only the carry is left is the spec's own decision D7. -/
def Obligations.AddRegistersSetsCarry : Prop :=
  ∀ (x y : Digit) (s : State), ∃ t, exec (.addr x y) s = .next t ∧
    (x ≠ vf → (t.reg x).toNat = ((s.reg x).toNat + (s.reg y).toNat) % 256) ∧
    (t.reg vf).toNat = (if (s.reg x).toNat + (s.reg y).toNat > 255 then 1 else 0) ∧
    s.endsNext t ∧ s.frame t [x, vf] []

/-- 43_alu, `SUB` and `SUBN`: the difference modulo 256, and VF = 1 iff no borrow. That equal operands have no borrow is the
spec's own decision D8; that for x = 15 only the flag is left, D7. -/
def Obligations.SubtractSetsNoBorrow : Prop :=
  ∀ (x y : Digit) (s : State),
    (∃ t, exec (.sub x y) s = .next t ∧
      (x ≠ vf → (t.reg x).toNat = (256 + (s.reg x).toNat - (s.reg y).toNat) % 256) ∧
      (t.reg vf).toNat = (if (s.reg y).toNat ≤ (s.reg x).toNat then 1 else 0) ∧
      s.endsNext t ∧ s.frame t [x, vf] []) ∧
    (∃ t, exec (.subn x y) s = .next t ∧
      (x ≠ vf → (t.reg x).toNat = (256 + (s.reg y).toNat - (s.reg x).toNat) % 256) ∧
      (t.reg vf).toNat = (if (s.reg x).toNat ≤ (s.reg y).toNat then 1 else 0) ∧
      s.endsNext t ∧ s.frame t [x, vf] [])

/-- 43_alu, `SHR` and `SHL`: with a the operand (Vy in Legacy, Vx in Modern), a div 2 and a mod 2, (2a) mod 256 and a div 128.
That for x = 15 only the flag is left is the spec's own decision D7. -/
def Obligations.ShiftsByOne : Prop :=
  ∀ (x y : Digit) (s : State) (a : Nat),
    (s.variant = .legacy → a = (s.reg y).toNat) → (s.variant = .modern → a = (s.reg x).toNat) →
    (∃ t, exec (.shr x y) s = .next t ∧
      (x ≠ vf → (t.reg x).toNat = a / 2) ∧ (t.reg vf).toNat = a % 2 ∧
      s.endsNext t ∧ s.frame t [x, vf] []) ∧
    (∃ t, exec (.shl x y) s = .next t ∧
      (x ≠ vf → (t.reg x).toNat = 2 * a % 256) ∧ (t.reg vf).toNat = a / 128 ∧
      s.endsNext t ∧ s.frame t [x, vf] [])

/-! ### The index register and memory (44_index_memory) -/

/-- R130: the words Annn; `I <- zext_16(nnn)`. -/
def Obligations.LoadIndexImmediate : Prop :=
  ∀ (nnn : Addr12) (s : State), decodeWord (wordNNN 0xA#4 nnn) = .ldi nnn ∧ ∃ t, exec (.ldi nnn) s = .next t ∧
    t.index.toNat = nnn.toNat ∧ s.endsNext t ∧ s.frame t [] [.index]

/-- 44_index_memory, `ADDI` and `LDF`: I + Vx modulo 65536 (the wrap is the spec's own decision D11), no flag; 0x050 + 5 * Vx
for the whole byte Vx (the literal reading, D10). -/
def Obligations.IndexAddAndGlyphAddress : Prop :=
  ∀ (x : Digit) (s : State),
    (∃ t, exec (.addi x) s = .next t ∧
      t.index.toNat = (s.index.toNat + (s.reg x).toNat) % 65536 ∧ s.endsNext t ∧ s.frame t [] [.index]) ∧
    (∃ t, exec (.ldf x) s = .next t ∧
      t.index.toNat = 0x050 + 5 * (s.reg x).toNat ∧ s.endsNext t ∧ s.frame t [] [.index])

/-- 44_index_memory, `BCD`: hundreds, tens and ones of Vx at I, I + 1, I + 2 and every other byte unchanged; `MemRange` and nothing
else when I + 2 exceeds 0xFFF (what a fault leaves is the spec's own decisions D15, D16; log entry 1). -/
def Obligations.BcdStoresThreeDigits : Prop :=
  ∀ (x : Digit) (s : State), s.memWf →
    (s.indexAddr + 2 ≤ 0xFFF → ∃ t, exec (.bcd x) s = .next t ∧
      (t.mem.read s.indexAddr).toNat = (s.reg x).toNat / 100 ∧
      (t.mem.read (s.indexAddr + 1)).toNat = (s.reg x).toNat / 10 % 10 ∧
      (t.mem.read (s.indexAddr + 2)).toNat = (s.reg x).toNat % 10 ∧
      s.sameBytesOutside t s.indexAddr 3 ∧ s.endsNext t ∧ s.frame t [] [.mem]) ∧
    (0xFFF < s.indexAddr + 2 → ∃ t, exec (.bcd x) s = .next t ∧ s.faultedOnly t .memRange)

/-- 44_index_memory, `STM`: V0 to Vx at I to I + x and every other byte unchanged; Legacy then adds x + 1 to I; `MemRange` and
nothing else when I + x exceeds 0xFFF (D15, D16; log entry 1). -/
def Obligations.StoreRegistersToMemory : Prop :=
  ∀ (x : Digit) (s : State), s.memWf →
    (s.indexAddr + x.toNat ≤ 0xFFF → ∃ t, exec (.stm x) s = .next t ∧
      (∀ k : Digit, k.toNat ≤ x.toNat → t.mem.read (s.indexAddr + k.toNat) = s.reg k) ∧
      s.sameBytesOutside t s.indexAddr (x.toNat + 1) ∧
      (s.variant = .legacy → t.index.toNat = (s.index.toNat + (x.toNat + 1)) % 65536) ∧
      (s.variant = .modern → t.index = s.index) ∧
      s.endsNext t ∧ s.frame t [] [.mem, .index]) ∧
    (0xFFF < s.indexAddr + x.toNat → ∃ t, exec (.stm x) s = .next t ∧ s.faultedOnly t .memRange)

/-- 44_index_memory, `LDM`: the bytes at I to I + x in V0 to Vx, registers above x and all of memory unchanged; Legacy then adds
x + 1 to I; `MemRange` and nothing else when I + x exceeds 0xFFF (D15, D16; log entry 1). -/
def Obligations.LoadRegistersFromMemory : Prop :=
  ∀ (x : Digit) (s : State),
    (s.indexAddr + x.toNat ≤ 0xFFF → ∃ t, exec (.ldm x) s = .next t ∧
      (∀ k : Digit, k.toNat ≤ x.toNat → t.reg k = s.mem.read (s.indexAddr + k.toNat)) ∧
      (∀ k : Digit, x.toNat < k.toNat → t.reg k = s.reg k) ∧
      (s.variant = .legacy → t.index.toNat = (s.index.toNat + (x.toNat + 1)) % 65536) ∧
      (s.variant = .modern → t.index = s.index) ∧
      s.endsNext t ∧ (∀ p : Part, p ≠ .index → s.keeps t p)) ∧
    (0xFFF < s.indexAddr + x.toNat → ∃ t, exec (.ldm x) s = .next t ∧ s.faultedOnly t .memRange)

/-- 95_test_vectors S9: registers stored by `STM` come back by an `LDM` from the same I, whatever the registers held in
between, as long as memory was not changed. -/
def Obligations.StoreThenLoadRestoresRegisters : Prop :=
  ∀ (x : Digit) (s t r : State), s.memWf → s.indexAddr + x.toNat ≤ 0xFFF →
    exec (.stm x) s = .next t → r.mem = t.mem → r.index = s.index →
    ∃ u, exec (.ldm x) r = .next u ∧ ∀ k : Digit, k.toNat ≤ x.toNat → u.reg k = s.reg k

/-! ### The display (45_display) -/

/-- R140: the words 0_E0; every pixel 0, `redraw = RedrawNeeded`, VF and everything else unchanged. -/
def Obligations.ClearDisplayClearsEveryPixel : Prop :=
  ∀ (d : Digit) (s : State), decodeWord (wordXNN 0x0#4 d 0xE0#8) = .cls d ∧ ∃ t, exec (.cls d) s = .next t ∧
    (∀ r c : Nat, r < 32 → c < 64 → t.pixel r c = false) ∧
    t.pc = s.pc + 2#16 ∧ t.redraw = .redrawNeeded ∧ s.frame t [] [.disp]

/-- 45_display, `DRW`: pixel by pixel, old XOR the sprite's bit, clipped at the edges; VF = 1 iff a lit pixel meets a set bit,
else 0; `MemRange` and nothing else when a sprite address exceeds 0xFFF, clipped rows included. Rests on the spec's own
decisions D4 (bit 7 leftmost), D7 (VF last), D15 (range first), D30 (n = 0). -/
def Obligations.DrawXorsTheSprite : Prop :=
  ∀ (x y n : Digit) (s : State) (px py : Nat), px = (s.reg x).toNat % 64 → py = (s.reg y).toNat % 32 →
    (n.toNat = 0 ∨ s.indexAddr + n.toNat ≤ 4096 → ∃ t, exec (.drw x y n) s = .next t ∧
      (∀ r c : Nat, r < 32 → c < 64 →
        t.pixel r c = (s.pixel r c ^^ s.spriteBit s.indexAddr n.toNat px py r c)) ∧
      ((∃ r c : Nat, r < 32 ∧ c < 64 ∧ s.pixel r c = true ∧
          s.spriteBit s.indexAddr n.toNat px py r c = true) → t.reg vf = 0x01#8) ∧
      ((¬ ∃ r c : Nat, r < 32 ∧ c < 64 ∧ s.pixel r c = true ∧
          s.spriteBit s.indexAddr n.toNat px py r c = true) → t.reg vf = 0x00#8) ∧
      t.pc = s.pc + 2#16 ∧ t.redraw = .redrawNeeded ∧ s.frame t [vf] [.disp]) ∧
    (n.toNat ≠ 0 ∧ 4096 < s.indexAddr + n.toNat →
      ∃ t, exec (.drw x y n) s = .next t ∧ s.faultedOnly t .memRange)

/-- 45_display (corner cases of `DRW`): the same sprite drawn twice at the same place restores the display; VF is 1 after the
second draw iff some bit of the sprite was drawn on an unlit pixel by the first. -/
def Obligations.DrawTwiceRestoresDisplay : Prop :=
  ∀ (x y n : Digit) (s : State), x ≠ vf → y ≠ vf → (n.toNat = 0 ∨ s.indexAddr + n.toNat ≤ 4096) →
    ∃ t u, exec (.drw x y n) s = .next t ∧ exec (.drw x y n) t = .next u ∧
      (∀ r c : Nat, r < 32 → c < 64 → u.pixel r c = s.pixel r c) ∧
      (u.reg vf = 0x01#8 ↔ ∃ r c : Nat, r < 32 ∧ c < 64 ∧ s.pixel r c = false ∧
        s.spriteBit s.indexAddr n.toNat ((s.reg x).toNat % 64) ((s.reg y).toNat % 32) r c = true)

/-! ### Keypad and timers (46_keypad_timers) -/

/-- 46_keypad_timers, `SKP` and `SKNP`: the key of the snapshot that the whole byte Vx names is held. That a number above 15 names no
key is the spec's own decision D9. -/
def Obligations.KeySkips : Prop :=
  ∀ (x : Digit) (s : State),
    (∃ t, exec (.skp x) s = .next t ∧
      s.endsSkip t (∃ k : Nat, k ≤ 15 ∧ (s.reg x).toNat = k ∧ s.inputs.keys.getLsbD k = true)) ∧
    (∃ t, exec (.sknp x) s = .next t ∧
      s.endsSkip t (¬ ∃ k : Nat, k ≤ 15 ∧ (s.reg x).toNat = k ∧ s.inputs.keys.getLsbD k = true))

/-- R153: the words Fx0A; with a press reported, Vx is its key and the step ends at PC + 2; with none, PC and every register stay. -/
def Obligations.KeyWaitStaysUntilPress : Prop :=
  ∀ (x : Digit) (s : State),
    decodeWord (wordXNN 0xF#4 x 0x0A#8) = .ldk x ∧
    (∀ k : Digit, s.inputs.lastKey = some k → ∃ t, exec (.ldk x) s = .next t ∧
      (t.reg x).toNat = k.toNat ∧ s.endsNext t ∧ s.frame t [x] []) ∧
    (s.inputs.lastKey = none → ∃ t, exec (.ldk x) s = .next t ∧
      t.pc = s.pc ∧ t.redraw = .noChange ∧ s.frame t [] [])

/-- R152, R154: the words Fx07 and Fx15; `V[x] <- DT` and `DT <- V[x]`. -/
def Obligations.DelayTimerTransfers : Prop :=
  ∀ (x : Digit) (s : State),
    (decodeWord (wordXNN 0xF#4 x 0x07#8) = .ldvdt x ∧ decodeWord (wordXNN 0xF#4 x 0x15#8) = .lddt x) ∧
    (∃ t, exec (.ldvdt x) s = .next t ∧ t.reg x = s.dt ∧ s.endsNext t ∧ s.frame t [x] []) ∧
    (∃ t, exec (.lddt x) s = .next t ∧ t.dt = s.reg x ∧ s.endsNext t ∧ s.frame t [] [.dt])

/-- R155: the words Fx18; `ST <- V[x]`; and no instruction reads ST: no effect outside ST depends on it. -/
def Obligations.SoundTimerIsWrittenAndNeverRead : Prop :=
  (∀ (x : Digit) (s : State), decodeWord (wordXNN 0xF#4 x 0x18#8) = .ldst x ∧
    ∃ t, exec (.ldst x) s = .next t ∧ t.st = s.reg x ∧ s.endsNext t ∧ s.frame t [] [.st]) ∧
  ∀ (i : Instr) (s t : State) (b : Byte), exec i s = .next t →
    ∃ b', exec i (s.setSt b) = .next (t.setSt b')

/-! ### No-ops (47_noops) -/

/-- R160, R161, R162, R163: the words of class 0, 8, E and F that no matched row takes; only PC moves, by 2. -/
def Obligations.NoOpsOnlyAdvance : Prop :=
  ∀ (nnn : Addr12) (x y n : Digit) (nn : Byte) (s : State),
    ((nnn.setWidth 8 ∉ [0xE0#8, 0xEE#8] → decodeWord (wordNNN 0x0#4 nnn) = .sys nnn) ∧
      (n ∈ [0x8#4, 0x9#4, 0xA#4, 0xB#4, 0xC#4, 0xD#4, 0xF#4] → decodeWord (wordXYN 0x8#4 x y n) = .nop8 x y n) ∧
      (nn ∉ [0x9E#8, 0xA1#8] → decodeWord (wordXNN 0xE#4 x nn) = .nope x nn) ∧
      (nn ∉ [0x07#8, 0x0A#8, 0x15#8, 0x18#8, 0x1E#8, 0x29#8, 0x33#8, 0x55#8, 0x65#8] →
        decodeWord (wordXNN 0xF#4 x nn) = .nopf x nn)) ∧
    ∀ i ∈ [Instr.sys nnn, Instr.nop8 x y n, Instr.nope x nn, Instr.nopf x nn],
      ∃ t, exec i s = .next t ∧ s.endsNext t ∧ s.frame t [] []

/-! ### Every instruction -/

/-- 10_state section 1, sections 2 to 6: no instruction changes a register, a part of the state or a byte of memory beyond those
listed for it (VF writers, the writers of I, STACK, DT, ST, DISP, MEM). -/
def Obligations.EveryInstructionKeepsItsFrame : Prop :=
  ∀ (i : Instr) (s t : State), exec i s = .next t →
    s.frame t (regsWritten s.variant i) (partsWritten s.variant i)

/-- 30_encoding section 4, 60_exceptions section 1: no word traps because of its encoding and no step stops: every instruction
and every step answers a next state. -/
def Obligations.EveryInstructionAndStepGoesOn : Prop :=
  (∀ (i : Instr) (s : State), ∃ t, exec i s = .next t) ∧ ∀ s : State, ∃ t, step s = .next t

/-- 60_exceptions sections 1 and 4: an instruction changes `FAULT` only as `MemRange`, only `DRW`, `BCD`, `STM` and `LDM` do, and
the faulting instruction has changed nothing else (the spec's own decisions D15, D16; log entry 1). -/
def Obligations.OnlyFourInstructionsFaultPrecisely : Prop :=
  ∀ (i : Instr) (s t : State), exec i s = .next t → t.fault ≠ s.fault →
    i.mnemonic ∈ ["DRW", "BCD", "STM", "LDM"] ∧ s.faultedOnly t .memRange

/-- 10_state section 8 (outputs): on a running machine `redraw` is `RedrawNeeded` exactly for `CLS` and for a `DRW` that does not
fault (the spec's own decision D29). -/
def Obligations.RedrawExactlyForDisplayInstructions : Prop :=
  ∀ (i : Instr) (s t : State), s.fault = .noFault → exec i s = .next t →
    (t.redraw = .redrawNeeded ↔ i.mnemonic ∈ ["CLS", "DRW"] ∧ t.fault = .noFault)

/-- 10_state section 4 (`VARIANT`): no instruction beyond the four families depends on the variant. -/
def Obligations.OnlyFourFamiliesReadVariant : Prop :=
  ∀ (i : Instr) (s : State) (v : Variant),
    i.mnemonic ∉ ["OR", "AND", "XOR", "SHR", "SHL", "JPV", "STM", "LDM"] →
    exec i { s with variant := v } = onNext (fun t => { t with variant := v }) (exec i s)

/-- 60_exceptions section 8: the keypad and the random source are reached by `SKP`, `SKNP`, `LDK` and `RND` only. -/
def Obligations.OnlyFourInstructionsReadInputs : Prop :=
  ∀ (i : Instr) (s : State) (inputs : Inputs), i.mnemonic ∉ ["SKP", "SKNP", "LDK", "RND"] →
    exec i (s.setInputs inputs) = onNext (fun t => t.setInputs inputs) (exec i s)

/-- 45_display, 10_state section 7: the collision flag of `DRW` is the only way to read the frame buffer: no other
instruction's effect outside the display depends on it. -/
def Obligations.OnlyDrawReadsDisplay : Prop :=
  ∀ (i : Instr) (s t : State) (d : Vector (BitVec 64) 32), i.mnemonic ≠ "DRW" →
    exec i s = .next t → ∃ d', exec i (s.setDisp d) = .next (t.setDisp d')

/-! ### The step and the events -/

/-- 10_state section 3 (the step): on a running machine whose bytes at PC, high byte first, decode to a well-formed
instruction, the step is that instruction's `exec`, after which no `LOAD` is admitted and the host takes its turn. The
byte order is the spec's own decision D2. -/
def Obligations.StepRunsTheDecodedInstruction : Prop :=
  ∀ (i : Instr) (s : State), s.fault = .noFault → s.pc.toNat ≤ 0xFFE → i.wellFormed = true →
    decode [s.mem.read s.pc.toNat, s.mem.read (s.pc.toNat + 1)] = .ok (i, []) →
    step s = onNext State.hostTurn (onNext State.closeLoad (exec i s))

/-- An instruction word stored where the machine fetches runs as the very next step (the model's `withFetchWord`, log entry 8). -/
def Obligations.FetchWordRunsNext : Prop :=
  ∀ (i : Instr) (s : State) (w : Nat), s.memWf → decodeTableWord 16 w = some i →
    step (s.withFetchWord 16 w) =
      onNext State.hostTurn (onNext State.closeLoad (exec i (s.withFetchWord 16 w)))

/-- 20_memory section 8: a store is seen by the next fetch: `STM` over the two bytes after itself makes them the next
instruction. -/
def Obligations.StoreIsSeenByNextFetch : Prop :=
  ∀ (x : Digit) (s t : State), s.memWf → s.fault = .noFault → s.pc.toNat ≤ 0xFFC → x ≠ 0x0#4 →
    s.indexAddr = s.pc.toNat + 2 → s.indexAddr + x.toNat ≤ 0xFFF → exec (.stm x) s = .next t →
    stepEvent t =
      onNext State.closeLoad (exec (decodeWord (wordOfBytes (s.reg 0x0#4) (s.reg 0x1#4))) t)

/-- 60_exceptions section 1: a step with PC above 0xFFE latches `FetchRange` and does nothing else (the spec's own decisions D12,
D16). -/
def Obligations.FetchBeyondMemoryFaults : Prop :=
  ∀ s : State, s.fault = .noFault → 0xFFE < s.pc.toNat → ∃ t, stepEvent s = .next t ∧
    t.fault = .fetchRange ∧ t.pc = s.pc ∧ t.redraw = .noChange ∧ s.frame t [] [.fault, .host]

/-- 60_exceptions section 4: while a fault is latched a `STEP` has no effect, and a step of the interface moves only the timers
down (the spec's own decision D16). -/
def Obligations.StoppedMachineOnlyTicks : Prop :=
  ∀ s : State, s.fault ≠ .noFault →
    (∃ t, stepEvent s = .next t ∧ t.pc = s.pc ∧ t.redraw = .noChange ∧ s.frame t [] [.host]) ∧
    (∃ t, step s = .next t ∧ t.pc = s.pc ∧ t.dt.toNat ≤ s.dt.toNat ∧ t.st.toNat ≤ s.st.toNat ∧
      s.frame t [] [.dt, .st, .host])

/-- R180: each timer falls by one while nonzero and stays at 0; nothing else changes and no `redraw` is output. -/
def Obligations.TickCountsBothTimersDown : Prop :=
  ∀ s : State, ∃ t, deliver .tick s = .next t ∧
    (t.dt.toNat = if s.dt.toNat > 0 then s.dt.toNat - 1 else 0) ∧
    (t.st.toNat = if s.st.toNat > 0 then s.st.toNat - 1 else 0) ∧
    t.pc = s.pc ∧ t.redraw = s.redraw ∧ s.frame t [] [.dt, .st]

/-- 60_exceptions section 7: between two steps the timers fall by one per tick for some number of ticks, and nothing else but the
host's side changes (the spec's own decision D19; log entry 6). -/
def Obligations.HostTurnOnlyTicks : Prop :=
  ∀ s t : State, step s = .next t → ∃ u n, stepEvent s = .next u ∧
    t.dt.toNat = u.dt.toNat - n ∧ t.st.toNat = u.st.toNat - n ∧
    t.pc = u.pc ∧ t.redraw = u.redraw ∧ u.frame t [] [.dt, .st, .host]

/-- 60_exceptions section 7: every number of `TICK` events between two steps is admitted: a scheduled turn of n ticks makes the
step its `STEP` event followed by n `TICK` events, and presents the scheduled snapshot (log entry 6). -/
def Obligations.EveryNumberOfTicksIsAdmitted : Prop :=
  ∀ (s u : State) (turn : HostTurn) (rest : List HostTurn), s.schedule = turn :: rest → stepEvent s = .next u →
    ∃ w, deliverAll (List.replicate turn.ticks .tick) u = .next w ∧
      step s = .next { w with inputs := turn.inputs, schedule := rest }

/-- 70_reset sections 1 and 2 (`LOAD`): the image verbatim from 0x200 and nothing else changed; a longer image than 3584 bytes is
refused; so is a second load or one after a step (the spec's own decision D27; log entry 8). -/
def Obligations.LoadWritesTheImage : Prop :=
  ∀ (bytes : List Byte) (s : State), s.memWf →
    (bytes.length ≤ 3584 ∧ s.loadable = true → ∃ t, deliver (.load bytes) s = .next t ∧
      (∀ (k : Nat) (h : k < bytes.length), t.mem.read (0x200 + k) = bytes[k]) ∧
      s.sameBytesOutside t 0x200 bytes.length ∧ t.loadable = false ∧
      t.pc = s.pc ∧ s.frame t [] [.mem, .host]) ∧
    (3584 < bytes.length → deliver (.load bytes) s = .refused .imageTooLong) ∧
    (bytes.length ≤ 3584 ∧ s.loadable = false → deliver (.load bytes) s = .refused .loadNotAdmitted)

/-- 10_state section 9, 70_reset section 1 (`RESET`): PC 0x200, display clear, the glyph table from the argument, the variant
chosen; the zero values and the empty stack are the spec's own decision D14, the cleared latch D16 (log entry 4). Two clauses are
the model's choice: that the field `redraw` is NoChange (log entry 7; the spec's RESET outputs none), and that the field
`loadable` is true, so that a `LOAD` is admitted after it (log entry 8; 70_reset section 2, decision D27). -/
def Obligations.ResetSetsEveryPiece : Prop :=
  ∀ (v : Variant) (rom : Vector Byte 80) (s : State), ∃ t, deliver (.reset v rom) s = .next t ∧
    t.pc = 0x200#16 ∧ t.variant = v ∧
    (∀ r c : Nat, r < 32 → c < 64 → t.pixel r c = false) ∧
    (∀ i : Fin 80, t.mem.read (0x050 + i.val) = rom[i.val]) ∧
    (∀ a : Nat, a < 0x050 ∨ 0x0A0 ≤ a → t.mem.read a = 0x00#8) ∧
    (∀ k : Digit, t.reg k = 0x00#8) ∧ t.index = 0#16 ∧ t.dt = 0#8 ∧ t.st = 0#8 ∧
    t.sp = -1 ∧ (∀ k : Fin 16, t.stack[k.val] = 0#16) ∧ t.fault = .noFault ∧
    t.redraw = .noChange ∧ t.loadable = true

/-- 10_state section 4, 60_exceptions section 5: of the events only `RESET` changes `VARIANT`, and only `RESET` takes the machine out
of a fault (the spec's own decision D16). -/
def Obligations.OnlyResetChangesVariantOrClearsFault : Prop :=
  ∀ (e : HostEvent) (s t : State), deliver e s = .next t →
    (t.variant ≠ s.variant ∨ (s.fault ≠ .noFault ∧ t.fault ≠ s.fault)) →
    ∃ v rom, e = .reset v rom

/-- 60_exceptions section 10: at a stable end every `STEP` leaves the whole state unchanged, and it stays a stable end after steps
and ticks (the spec's own convention, D34). -/
def Obligations.StableEndIsStable : Prop :=
  ∀ (s : State) (a : Addr12), s.stableEnd a →
    ∃ t, stepEvent s = .next t ∧ t.pc = s.pc ∧ s.frame t [] [.host] ∧ t.stableEnd a ∧ s.tick.stableEnd a

/-! ### Encoding (30_encoding) -/

/-- 30_encoding: a few words written out from the map decode to the instructions they stand for. -/
def Obligations.SampleWordsDecode : Prop :=
  decodeTableWord 16 0x00E0 = some (.cls 0x0#4) ∧
  decodeTableWord 16 0x07EE = some (.ret 0x7#4) ∧
  decodeTableWord 16 0x0123 = some (.sys 0x123#12) ∧
  decodeTableWord 16 0x332A = some (.se 0x3#4 0x2A#8) ∧
  decodeTableWord 16 0x812E = some (.shl 0x1#4 0x2#4) ∧
  decodeTableWord 16 0xD125 = some (.drw 0x1#4 0x2#4 0x5#4) ∧
  decodeTableWord 16 0xE2A1 = some (.sknp 0x2#4) ∧
  decodeTableWord 16 0xF375 = some (.nopf 0x3#4 0x75#8)

/-- 30_encoding sections 1 to 3: the bytes of every well-formed instruction, every operand at every value, decode to it, with
the bytes after them left over. -/
def Obligations.DecodeInvertsEncode : Prop :=
  ∀ (i : Instr) (rest : List Byte), i.wellFormed = true → decode (encode i ++ rest) = .ok (i, rest)

/-- 30_encoding sections 3 and 4: every one of the 65536 words decodes to a well-formed instruction whose word it is, so the
words and the well-formed instructions correspond one to one. -/
def Obligations.EncodeInvertsDecode : Prop :=
  ∀ w : Word, (decodeWord w).wellFormed = true ∧ encodeWord (decodeWord w) = w

/-- 30_encoding section 3: a word selects a matched row iff it has the row's pattern under its mask, and a fallback row iff it has
its class and no matched row's pattern. -/
def Obligations.WordsSelectByMaskAndMatch : Prop :=
  ∀ w : Word,
    (∀ row ∈ matchedRows, (decodeWord w).mnemonic = row.mnemonic ↔ row.selects w = true) ∧
    (∀ row ∈ fallbackRows, (decodeWord w).mnemonic = row.mnemonic ↔
      row.selects w = true ∧ ∀ r ∈ matchedRows, r.selects w = false)

/-! ### Invariants -/

/-- 20_memory sections 1 and 5: memory stays the 4096 bytes, in its canonical form, after every step and every event. -/
def Obligations.StepsKeepMemoryCanonical : Prop :=
  (∀ s t : State, s.memWf → step s = .next t → t.memWf) ∧
  ∀ (e : HostEvent) (s t : State), s.memWf → deliver e s = .next t → t.memWf

/-- 10_state section 3: PC never exceeds 0x10FE and no stack entry exceeds 0x1000, so that no rule wraps or truncates PC: every
step and every event keeps the bound. -/
def Obligations.StepsKeepPcBounded : Prop :=
  (∀ s t : State, s.pcBounded → step s = .next t → t.pcBounded) ∧
  ∀ (e : HostEvent) (s t : State), s.pcBounded → deliver e s = .next t → t.pcBounded

/-- Both invariants hold at the machine's reset state, and after every `RESET` event from any state. -/
def Obligations.ResetMeetsInvariants : Prop :=
  (State.reset.memWf ∧ State.reset.pcBounded) ∧
  ∀ (v : Variant) (rom : Vector Byte 80) (s t : State), deliver (.reset v rom) s = .next t →
    t.memWf ∧ t.pcBounded

/-- Equal memories are equal data: two memories in the canonical form that read the same at every address of the space are
the same list. -/
def Obligations.CanonicalMemoriesAreEqualData : Prop :=
  ∀ m m' : Memory, m.wf = true → m'.wf = true → (∀ a, a < 4096 → m.read a = m'.read a) → m = m'
end

