-- ==== Sys2Proof/Laws/State.lean ====
section
/-! SUPPORT. For every update of the state, one lemma per field: what the field holds afterwards. -/

namespace Sys2Proof.Machine

variable (s : State)

/-! ### setReg -/

@[simp] theorem State.setReg_v (x : Digit) (b : Byte) : (s.setReg x b).v = s.v.set x.toNat b := rfl
@[simp] theorem State.setReg_index (x : Digit) (b : Byte) : (s.setReg x b).index = s.index := rfl
@[simp] theorem State.setReg_pc (x : Digit) (b : Byte) : (s.setReg x b).pc = s.pc := rfl
@[simp] theorem State.setReg_stack (x : Digit) (b : Byte) : (s.setReg x b).stack = s.stack := rfl
@[simp] theorem State.setReg_stackUsed (x : Digit) (b : Byte) : (s.setReg x b).stackUsed = s.stackUsed := rfl
@[simp] theorem State.setReg_dt (x : Digit) (b : Byte) : (s.setReg x b).dt = s.dt := rfl
@[simp] theorem State.setReg_st (x : Digit) (b : Byte) : (s.setReg x b).st = s.st := rfl
@[simp] theorem State.setReg_disp (x : Digit) (b : Byte) : (s.setReg x b).disp = s.disp := rfl
@[simp] theorem State.setReg_mem (x : Digit) (b : Byte) : (s.setReg x b).mem = s.mem := rfl
@[simp] theorem State.setReg_fault (x : Digit) (b : Byte) : (s.setReg x b).fault = s.fault := rfl
@[simp] theorem State.setReg_variant (x : Digit) (b : Byte) : (s.setReg x b).variant = s.variant := rfl
@[simp] theorem State.setReg_redraw (x : Digit) (b : Byte) : (s.setReg x b).redraw = s.redraw := rfl
@[simp] theorem State.setReg_inputs (x : Digit) (b : Byte) : (s.setReg x b).inputs = s.inputs := rfl
@[simp] theorem State.setReg_schedule (x : Digit) (b : Byte) : (s.setReg x b).schedule = s.schedule := rfl
@[simp] theorem State.setReg_draws (x : Digit) (b : Byte) : (s.setReg x b).draws = s.draws := rfl
@[simp] theorem State.setReg_loadable (x : Digit) (b : Byte) : (s.setReg x b).loadable = s.loadable := rfl

/-! ### setRegFlag -/

@[simp] theorem State.setRegFlag_index (x : Digit) (b f : Byte) : (s.setRegFlag x b f).index = s.index := rfl
@[simp] theorem State.setRegFlag_pc (x : Digit) (b f : Byte) : (s.setRegFlag x b f).pc = s.pc := rfl
@[simp] theorem State.setRegFlag_stack (x : Digit) (b f : Byte) : (s.setRegFlag x b f).stack = s.stack := rfl
@[simp] theorem State.setRegFlag_stackUsed (x : Digit) (b f : Byte) :
    (s.setRegFlag x b f).stackUsed = s.stackUsed := rfl
@[simp] theorem State.setRegFlag_dt (x : Digit) (b f : Byte) : (s.setRegFlag x b f).dt = s.dt := rfl
@[simp] theorem State.setRegFlag_st (x : Digit) (b f : Byte) : (s.setRegFlag x b f).st = s.st := rfl
@[simp] theorem State.setRegFlag_disp (x : Digit) (b f : Byte) : (s.setRegFlag x b f).disp = s.disp := rfl
@[simp] theorem State.setRegFlag_mem (x : Digit) (b f : Byte) : (s.setRegFlag x b f).mem = s.mem := rfl
@[simp] theorem State.setRegFlag_fault (x : Digit) (b f : Byte) : (s.setRegFlag x b f).fault = s.fault := rfl
@[simp] theorem State.setRegFlag_variant (x : Digit) (b f : Byte) : (s.setRegFlag x b f).variant = s.variant := rfl
@[simp] theorem State.setRegFlag_redraw (x : Digit) (b f : Byte) : (s.setRegFlag x b f).redraw = s.redraw := rfl
@[simp] theorem State.setRegFlag_inputs (x : Digit) (b f : Byte) : (s.setRegFlag x b f).inputs = s.inputs := rfl
@[simp] theorem State.setRegFlag_schedule (x : Digit) (b f : Byte) : (s.setRegFlag x b f).schedule = s.schedule := rfl
@[simp] theorem State.setRegFlag_draws (x : Digit) (b f : Byte) : (s.setRegFlag x b f).draws = s.draws := rfl
@[simp] theorem State.setRegFlag_loadable (x : Digit) (b f : Byte) : (s.setRegFlag x b f).loadable = s.loadable := rfl

/-! ### setRegs -/

@[simp] theorem State.setRegs_index (bs : List Byte) : (s.setRegs bs).index = s.index := rfl
@[simp] theorem State.setRegs_pc (bs : List Byte) : (s.setRegs bs).pc = s.pc := rfl
@[simp] theorem State.setRegs_stack (bs : List Byte) : (s.setRegs bs).stack = s.stack := rfl
@[simp] theorem State.setRegs_stackUsed (bs : List Byte) : (s.setRegs bs).stackUsed = s.stackUsed := rfl
@[simp] theorem State.setRegs_dt (bs : List Byte) : (s.setRegs bs).dt = s.dt := rfl
@[simp] theorem State.setRegs_st (bs : List Byte) : (s.setRegs bs).st = s.st := rfl
@[simp] theorem State.setRegs_disp (bs : List Byte) : (s.setRegs bs).disp = s.disp := rfl
@[simp] theorem State.setRegs_mem (bs : List Byte) : (s.setRegs bs).mem = s.mem := rfl
@[simp] theorem State.setRegs_fault (bs : List Byte) : (s.setRegs bs).fault = s.fault := rfl
@[simp] theorem State.setRegs_variant (bs : List Byte) : (s.setRegs bs).variant = s.variant := rfl
@[simp] theorem State.setRegs_redraw (bs : List Byte) : (s.setRegs bs).redraw = s.redraw := rfl
@[simp] theorem State.setRegs_inputs (bs : List Byte) : (s.setRegs bs).inputs = s.inputs := rfl
@[simp] theorem State.setRegs_schedule (bs : List Byte) : (s.setRegs bs).schedule = s.schedule := rfl
@[simp] theorem State.setRegs_draws (bs : List Byte) : (s.setRegs bs).draws = s.draws := rfl
@[simp] theorem State.setRegs_loadable (bs : List Byte) : (s.setRegs bs).loadable = s.loadable := rfl

/-! ### setLogic -/

@[simp] theorem State.setLogic_index (x : Digit) (b : Byte) :
    (s.setLogic x b).index = s.index := by unfold State.setLogic; split <;> rfl
@[simp] theorem State.setLogic_pc (x : Digit) (b : Byte) :
    (s.setLogic x b).pc = s.pc := by unfold State.setLogic; split <;> rfl
@[simp] theorem State.setLogic_stack (x : Digit) (b : Byte) :
    (s.setLogic x b).stack = s.stack := by unfold State.setLogic; split <;> rfl
@[simp] theorem State.setLogic_stackUsed (x : Digit) (b : Byte) :
    (s.setLogic x b).stackUsed = s.stackUsed := by unfold State.setLogic; split <;> rfl
@[simp] theorem State.setLogic_dt (x : Digit) (b : Byte) :
    (s.setLogic x b).dt = s.dt := by unfold State.setLogic; split <;> rfl
@[simp] theorem State.setLogic_st (x : Digit) (b : Byte) :
    (s.setLogic x b).st = s.st := by unfold State.setLogic; split <;> rfl
@[simp] theorem State.setLogic_disp (x : Digit) (b : Byte) :
    (s.setLogic x b).disp = s.disp := by unfold State.setLogic; split <;> rfl
@[simp] theorem State.setLogic_mem (x : Digit) (b : Byte) :
    (s.setLogic x b).mem = s.mem := by unfold State.setLogic; split <;> rfl
@[simp] theorem State.setLogic_fault (x : Digit) (b : Byte) :
    (s.setLogic x b).fault = s.fault := by unfold State.setLogic; split <;> rfl
@[simp] theorem State.setLogic_variant (x : Digit) (b : Byte) :
    (s.setLogic x b).variant = s.variant := by unfold State.setLogic; split <;> rfl
@[simp] theorem State.setLogic_redraw (x : Digit) (b : Byte) :
    (s.setLogic x b).redraw = s.redraw := by unfold State.setLogic; split <;> rfl
@[simp] theorem State.setLogic_inputs (x : Digit) (b : Byte) :
    (s.setLogic x b).inputs = s.inputs := by unfold State.setLogic; split <;> rfl
@[simp] theorem State.setLogic_schedule (x : Digit) (b : Byte) :
    (s.setLogic x b).schedule = s.schedule := by unfold State.setLogic; split <;> rfl
@[simp] theorem State.setLogic_draws (x : Digit) (b : Byte) :
    (s.setLogic x b).draws = s.draws := by unfold State.setLogic; split <;> rfl
@[simp] theorem State.setLogic_loadable (x : Digit) (b : Byte) :
    (s.setLogic x b).loadable = s.loadable := by unfold State.setLogic; split <;> rfl

/-! ### setIndex -/

@[simp] theorem State.setIndex_v (a : Word) : (s.setIndex a).v = s.v := rfl
@[simp] theorem State.setIndex_index (a : Word) : (s.setIndex a).index = a := rfl
@[simp] theorem State.setIndex_pc (a : Word) : (s.setIndex a).pc = s.pc := rfl
@[simp] theorem State.setIndex_stack (a : Word) : (s.setIndex a).stack = s.stack := rfl
@[simp] theorem State.setIndex_stackUsed (a : Word) : (s.setIndex a).stackUsed = s.stackUsed := rfl
@[simp] theorem State.setIndex_dt (a : Word) : (s.setIndex a).dt = s.dt := rfl
@[simp] theorem State.setIndex_st (a : Word) : (s.setIndex a).st = s.st := rfl
@[simp] theorem State.setIndex_disp (a : Word) : (s.setIndex a).disp = s.disp := rfl
@[simp] theorem State.setIndex_mem (a : Word) : (s.setIndex a).mem = s.mem := rfl
@[simp] theorem State.setIndex_fault (a : Word) : (s.setIndex a).fault = s.fault := rfl
@[simp] theorem State.setIndex_variant (a : Word) : (s.setIndex a).variant = s.variant := rfl
@[simp] theorem State.setIndex_redraw (a : Word) : (s.setIndex a).redraw = s.redraw := rfl
@[simp] theorem State.setIndex_inputs (a : Word) : (s.setIndex a).inputs = s.inputs := rfl
@[simp] theorem State.setIndex_schedule (a : Word) : (s.setIndex a).schedule = s.schedule := rfl
@[simp] theorem State.setIndex_draws (a : Word) : (s.setIndex a).draws = s.draws := rfl
@[simp] theorem State.setIndex_loadable (a : Word) : (s.setIndex a).loadable = s.loadable := rfl

/-! ### setDt -/

@[simp] theorem State.setDt_v (b : Byte) : (s.setDt b).v = s.v := rfl
@[simp] theorem State.setDt_index (b : Byte) : (s.setDt b).index = s.index := rfl
@[simp] theorem State.setDt_pc (b : Byte) : (s.setDt b).pc = s.pc := rfl
@[simp] theorem State.setDt_stack (b : Byte) : (s.setDt b).stack = s.stack := rfl
@[simp] theorem State.setDt_stackUsed (b : Byte) : (s.setDt b).stackUsed = s.stackUsed := rfl
@[simp] theorem State.setDt_dt (b : Byte) : (s.setDt b).dt = b := rfl
@[simp] theorem State.setDt_st (b : Byte) : (s.setDt b).st = s.st := rfl
@[simp] theorem State.setDt_disp (b : Byte) : (s.setDt b).disp = s.disp := rfl
@[simp] theorem State.setDt_mem (b : Byte) : (s.setDt b).mem = s.mem := rfl
@[simp] theorem State.setDt_fault (b : Byte) : (s.setDt b).fault = s.fault := rfl
@[simp] theorem State.setDt_variant (b : Byte) : (s.setDt b).variant = s.variant := rfl
@[simp] theorem State.setDt_redraw (b : Byte) : (s.setDt b).redraw = s.redraw := rfl
@[simp] theorem State.setDt_inputs (b : Byte) : (s.setDt b).inputs = s.inputs := rfl
@[simp] theorem State.setDt_schedule (b : Byte) : (s.setDt b).schedule = s.schedule := rfl
@[simp] theorem State.setDt_draws (b : Byte) : (s.setDt b).draws = s.draws := rfl
@[simp] theorem State.setDt_loadable (b : Byte) : (s.setDt b).loadable = s.loadable := rfl

/-! ### setSt -/

@[simp] theorem State.setSt_v (b : Byte) : (s.setSt b).v = s.v := rfl
@[simp] theorem State.setSt_index (b : Byte) : (s.setSt b).index = s.index := rfl
@[simp] theorem State.setSt_pc (b : Byte) : (s.setSt b).pc = s.pc := rfl
@[simp] theorem State.setSt_stack (b : Byte) : (s.setSt b).stack = s.stack := rfl
@[simp] theorem State.setSt_stackUsed (b : Byte) : (s.setSt b).stackUsed = s.stackUsed := rfl
@[simp] theorem State.setSt_dt (b : Byte) : (s.setSt b).dt = s.dt := rfl
@[simp] theorem State.setSt_st (b : Byte) : (s.setSt b).st = b := rfl
@[simp] theorem State.setSt_disp (b : Byte) : (s.setSt b).disp = s.disp := rfl
@[simp] theorem State.setSt_mem (b : Byte) : (s.setSt b).mem = s.mem := rfl
@[simp] theorem State.setSt_fault (b : Byte) : (s.setSt b).fault = s.fault := rfl
@[simp] theorem State.setSt_variant (b : Byte) : (s.setSt b).variant = s.variant := rfl
@[simp] theorem State.setSt_redraw (b : Byte) : (s.setSt b).redraw = s.redraw := rfl
@[simp] theorem State.setSt_inputs (b : Byte) : (s.setSt b).inputs = s.inputs := rfl
@[simp] theorem State.setSt_schedule (b : Byte) : (s.setSt b).schedule = s.schedule := rfl
@[simp] theorem State.setSt_draws (b : Byte) : (s.setSt b).draws = s.draws := rfl
@[simp] theorem State.setSt_loadable (b : Byte) : (s.setSt b).loadable = s.loadable := rfl

/-! ### setDisp -/

@[simp] theorem State.setDisp_v (d : Vector (BitVec 64) 32) : (s.setDisp d).v = s.v := rfl
@[simp] theorem State.setDisp_index (d : Vector (BitVec 64) 32) : (s.setDisp d).index = s.index := rfl
@[simp] theorem State.setDisp_pc (d : Vector (BitVec 64) 32) : (s.setDisp d).pc = s.pc := rfl
@[simp] theorem State.setDisp_stack (d : Vector (BitVec 64) 32) : (s.setDisp d).stack = s.stack := rfl
@[simp] theorem State.setDisp_stackUsed (d : Vector (BitVec 64) 32) : (s.setDisp d).stackUsed = s.stackUsed := rfl
@[simp] theorem State.setDisp_dt (d : Vector (BitVec 64) 32) : (s.setDisp d).dt = s.dt := rfl
@[simp] theorem State.setDisp_st (d : Vector (BitVec 64) 32) : (s.setDisp d).st = s.st := rfl
@[simp] theorem State.setDisp_disp (d : Vector (BitVec 64) 32) : (s.setDisp d).disp = d := rfl
@[simp] theorem State.setDisp_mem (d : Vector (BitVec 64) 32) : (s.setDisp d).mem = s.mem := rfl
@[simp] theorem State.setDisp_fault (d : Vector (BitVec 64) 32) : (s.setDisp d).fault = s.fault := rfl
@[simp] theorem State.setDisp_variant (d : Vector (BitVec 64) 32) : (s.setDisp d).variant = s.variant := rfl
@[simp] theorem State.setDisp_redraw (d : Vector (BitVec 64) 32) : (s.setDisp d).redraw = s.redraw := rfl
@[simp] theorem State.setDisp_inputs (d : Vector (BitVec 64) 32) : (s.setDisp d).inputs = s.inputs := rfl
@[simp] theorem State.setDisp_schedule (d : Vector (BitVec 64) 32) : (s.setDisp d).schedule = s.schedule := rfl
@[simp] theorem State.setDisp_draws (d : Vector (BitVec 64) 32) : (s.setDisp d).draws = s.draws := rfl
@[simp] theorem State.setDisp_loadable (d : Vector (BitVec 64) 32) : (s.setDisp d).loadable = s.loadable := rfl

/-! ### setMem -/

@[simp] theorem State.setMem_v (m : Memory) : (s.setMem m).v = s.v := rfl
@[simp] theorem State.setMem_index (m : Memory) : (s.setMem m).index = s.index := rfl
@[simp] theorem State.setMem_pc (m : Memory) : (s.setMem m).pc = s.pc := rfl
@[simp] theorem State.setMem_stack (m : Memory) : (s.setMem m).stack = s.stack := rfl
@[simp] theorem State.setMem_stackUsed (m : Memory) : (s.setMem m).stackUsed = s.stackUsed := rfl
@[simp] theorem State.setMem_dt (m : Memory) : (s.setMem m).dt = s.dt := rfl
@[simp] theorem State.setMem_st (m : Memory) : (s.setMem m).st = s.st := rfl
@[simp] theorem State.setMem_disp (m : Memory) : (s.setMem m).disp = s.disp := rfl
@[simp] theorem State.setMem_mem (m : Memory) : (s.setMem m).mem = m := rfl
@[simp] theorem State.setMem_fault (m : Memory) : (s.setMem m).fault = s.fault := rfl
@[simp] theorem State.setMem_variant (m : Memory) : (s.setMem m).variant = s.variant := rfl
@[simp] theorem State.setMem_redraw (m : Memory) : (s.setMem m).redraw = s.redraw := rfl
@[simp] theorem State.setMem_inputs (m : Memory) : (s.setMem m).inputs = s.inputs := rfl
@[simp] theorem State.setMem_schedule (m : Memory) : (s.setMem m).schedule = s.schedule := rfl
@[simp] theorem State.setMem_draws (m : Memory) : (s.setMem m).draws = s.draws := rfl
@[simp] theorem State.setMem_loadable (m : Memory) : (s.setMem m).loadable = s.loadable := rfl

/-! ### goTo -/

@[simp] theorem State.goTo_v (p : Word) : (s.goTo p).v = s.v := rfl
@[simp] theorem State.goTo_index (p : Word) : (s.goTo p).index = s.index := rfl
@[simp] theorem State.goTo_pc (p : Word) : (s.goTo p).pc = p := rfl
@[simp] theorem State.goTo_stack (p : Word) : (s.goTo p).stack = s.stack := rfl
@[simp] theorem State.goTo_stackUsed (p : Word) : (s.goTo p).stackUsed = s.stackUsed := rfl
@[simp] theorem State.goTo_dt (p : Word) : (s.goTo p).dt = s.dt := rfl
@[simp] theorem State.goTo_st (p : Word) : (s.goTo p).st = s.st := rfl
@[simp] theorem State.goTo_disp (p : Word) : (s.goTo p).disp = s.disp := rfl
@[simp] theorem State.goTo_mem (p : Word) : (s.goTo p).mem = s.mem := rfl
@[simp] theorem State.goTo_fault (p : Word) : (s.goTo p).fault = s.fault := rfl
@[simp] theorem State.goTo_variant (p : Word) : (s.goTo p).variant = s.variant := rfl
@[simp] theorem State.goTo_redraw (p : Word) : (s.goTo p).redraw = .noChange := rfl
@[simp] theorem State.goTo_inputs (p : Word) : (s.goTo p).inputs = s.inputs := rfl
@[simp] theorem State.goTo_schedule (p : Word) : (s.goTo p).schedule = s.schedule := rfl
@[simp] theorem State.goTo_draws (p : Word) : (s.goTo p).draws = s.draws := rfl
@[simp] theorem State.goTo_loadable (p : Word) : (s.goTo p).loadable = s.loadable := rfl

/-! ### advance -/

@[simp] theorem State.advance_v : (s.advance).v = s.v := rfl
@[simp] theorem State.advance_index : (s.advance).index = s.index := rfl
@[simp] theorem State.advance_pc : (s.advance).pc = s.pc + 2#16 := rfl
@[simp] theorem State.advance_stack : (s.advance).stack = s.stack := rfl
@[simp] theorem State.advance_stackUsed : (s.advance).stackUsed = s.stackUsed := rfl
@[simp] theorem State.advance_dt : (s.advance).dt = s.dt := rfl
@[simp] theorem State.advance_st : (s.advance).st = s.st := rfl
@[simp] theorem State.advance_disp : (s.advance).disp = s.disp := rfl
@[simp] theorem State.advance_mem : (s.advance).mem = s.mem := rfl
@[simp] theorem State.advance_fault : (s.advance).fault = s.fault := rfl
@[simp] theorem State.advance_variant : (s.advance).variant = s.variant := rfl
@[simp] theorem State.advance_redraw : (s.advance).redraw = .noChange := rfl
@[simp] theorem State.advance_inputs : (s.advance).inputs = s.inputs := rfl
@[simp] theorem State.advance_schedule : (s.advance).schedule = s.schedule := rfl
@[simp] theorem State.advance_draws : (s.advance).draws = s.draws := rfl
@[simp] theorem State.advance_loadable : (s.advance).loadable = s.loadable := rfl

/-! ### skipIf -/

@[simp] theorem State.skipIf_v (c : Bool) : (s.skipIf c).v = s.v := rfl
@[simp] theorem State.skipIf_index (c : Bool) : (s.skipIf c).index = s.index := rfl
@[simp] theorem State.skipIf_pc (c : Bool) : (s.skipIf c).pc = if c then s.pc + 2#16 + 2#16 else s.pc + 2#16 := rfl
@[simp] theorem State.skipIf_stack (c : Bool) : (s.skipIf c).stack = s.stack := rfl
@[simp] theorem State.skipIf_stackUsed (c : Bool) : (s.skipIf c).stackUsed = s.stackUsed := rfl
@[simp] theorem State.skipIf_dt (c : Bool) : (s.skipIf c).dt = s.dt := rfl
@[simp] theorem State.skipIf_st (c : Bool) : (s.skipIf c).st = s.st := rfl
@[simp] theorem State.skipIf_disp (c : Bool) : (s.skipIf c).disp = s.disp := rfl
@[simp] theorem State.skipIf_mem (c : Bool) : (s.skipIf c).mem = s.mem := rfl
@[simp] theorem State.skipIf_fault (c : Bool) : (s.skipIf c).fault = s.fault := rfl
@[simp] theorem State.skipIf_variant (c : Bool) : (s.skipIf c).variant = s.variant := rfl
@[simp] theorem State.skipIf_redraw (c : Bool) : (s.skipIf c).redraw = .noChange := rfl
@[simp] theorem State.skipIf_inputs (c : Bool) : (s.skipIf c).inputs = s.inputs := rfl
@[simp] theorem State.skipIf_schedule (c : Bool) : (s.skipIf c).schedule = s.schedule := rfl
@[simp] theorem State.skipIf_draws (c : Bool) : (s.skipIf c).draws = s.draws := rfl
@[simp] theorem State.skipIf_loadable (c : Bool) : (s.skipIf c).loadable = s.loadable := rfl

/-! ### signalRedraw -/

@[simp] theorem State.signalRedraw_v : (s.signalRedraw).v = s.v := rfl
@[simp] theorem State.signalRedraw_index : (s.signalRedraw).index = s.index := rfl
@[simp] theorem State.signalRedraw_pc : (s.signalRedraw).pc = s.pc := rfl
@[simp] theorem State.signalRedraw_stack : (s.signalRedraw).stack = s.stack := rfl
@[simp] theorem State.signalRedraw_stackUsed : (s.signalRedraw).stackUsed = s.stackUsed := rfl
@[simp] theorem State.signalRedraw_dt : (s.signalRedraw).dt = s.dt := rfl
@[simp] theorem State.signalRedraw_st : (s.signalRedraw).st = s.st := rfl
@[simp] theorem State.signalRedraw_disp : (s.signalRedraw).disp = s.disp := rfl
@[simp] theorem State.signalRedraw_mem : (s.signalRedraw).mem = s.mem := rfl
@[simp] theorem State.signalRedraw_fault : (s.signalRedraw).fault = s.fault := rfl
@[simp] theorem State.signalRedraw_variant : (s.signalRedraw).variant = s.variant := rfl
@[simp] theorem State.signalRedraw_redraw : (s.signalRedraw).redraw = .redrawNeeded := rfl
@[simp] theorem State.signalRedraw_inputs : (s.signalRedraw).inputs = s.inputs := rfl
@[simp] theorem State.signalRedraw_schedule : (s.signalRedraw).schedule = s.schedule := rfl
@[simp] theorem State.signalRedraw_draws : (s.signalRedraw).draws = s.draws := rfl
@[simp] theorem State.signalRedraw_loadable : (s.signalRedraw).loadable = s.loadable := rfl

/-! ### takeFault -/

@[simp] theorem State.takeFault_v (f : FaultLatch) : (s.takeFault f).v = s.v := rfl
@[simp] theorem State.takeFault_index (f : FaultLatch) : (s.takeFault f).index = s.index := rfl
@[simp] theorem State.takeFault_pc (f : FaultLatch) : (s.takeFault f).pc = s.pc := rfl
@[simp] theorem State.takeFault_stack (f : FaultLatch) : (s.takeFault f).stack = s.stack := rfl
@[simp] theorem State.takeFault_stackUsed (f : FaultLatch) : (s.takeFault f).stackUsed = s.stackUsed := rfl
@[simp] theorem State.takeFault_dt (f : FaultLatch) : (s.takeFault f).dt = s.dt := rfl
@[simp] theorem State.takeFault_st (f : FaultLatch) : (s.takeFault f).st = s.st := rfl
@[simp] theorem State.takeFault_disp (f : FaultLatch) : (s.takeFault f).disp = s.disp := rfl
@[simp] theorem State.takeFault_mem (f : FaultLatch) : (s.takeFault f).mem = s.mem := rfl
@[simp] theorem State.takeFault_fault (f : FaultLatch) : (s.takeFault f).fault = f := rfl
@[simp] theorem State.takeFault_variant (f : FaultLatch) : (s.takeFault f).variant = s.variant := rfl
@[simp] theorem State.takeFault_redraw (f : FaultLatch) : (s.takeFault f).redraw = .noChange := rfl
@[simp] theorem State.takeFault_inputs (f : FaultLatch) : (s.takeFault f).inputs = s.inputs := rfl
@[simp] theorem State.takeFault_schedule (f : FaultLatch) : (s.takeFault f).schedule = s.schedule := rfl
@[simp] theorem State.takeFault_draws (f : FaultLatch) : (s.takeFault f).draws = s.draws := rfl
@[simp] theorem State.takeFault_loadable (f : FaultLatch) : (s.takeFault f).loadable = s.loadable := rfl

/-! ### push -/

@[simp] theorem State.push_v (p : Word) : (s.push p).v = s.v := by unfold State.push; split <;> rfl
@[simp] theorem State.push_index (p : Word) : (s.push p).index = s.index := by unfold State.push; split <;> rfl
@[simp] theorem State.push_pc (p : Word) : (s.push p).pc = s.pc := by unfold State.push; split <;> rfl
@[simp] theorem State.push_dt (p : Word) : (s.push p).dt = s.dt := by unfold State.push; split <;> rfl
@[simp] theorem State.push_st (p : Word) : (s.push p).st = s.st := by unfold State.push; split <;> rfl
@[simp] theorem State.push_disp (p : Word) : (s.push p).disp = s.disp := by unfold State.push; split <;> rfl
@[simp] theorem State.push_mem (p : Word) : (s.push p).mem = s.mem := by unfold State.push; split <;> rfl
@[simp] theorem State.push_fault (p : Word) : (s.push p).fault = s.fault := by unfold State.push; split <;> rfl
@[simp] theorem State.push_variant (p : Word) : (s.push p).variant = s.variant := by unfold State.push; split <;> rfl
@[simp] theorem State.push_redraw (p : Word) : (s.push p).redraw = s.redraw := by unfold State.push; split <;> rfl
@[simp] theorem State.push_inputs (p : Word) : (s.push p).inputs = s.inputs := by unfold State.push; split <;> rfl
@[simp] theorem State.push_schedule (p : Word) :
    (s.push p).schedule = s.schedule := by unfold State.push; split <;> rfl
@[simp] theorem State.push_draws (p : Word) : (s.push p).draws = s.draws := by unfold State.push; split <;> rfl
@[simp] theorem State.push_loadable (p : Word) :
    (s.push p).loadable = s.loadable := by unfold State.push; split <;> rfl

/-! ### pop -/

@[simp] theorem State.pop_v : (s.pop).v = s.v := rfl
@[simp] theorem State.pop_index : (s.pop).index = s.index := rfl
@[simp] theorem State.pop_pc : (s.pop).pc = s.pc := rfl
@[simp] theorem State.pop_stack : (s.pop).stack = s.stack := rfl
@[simp] theorem State.pop_dt : (s.pop).dt = s.dt := rfl
@[simp] theorem State.pop_st : (s.pop).st = s.st := rfl
@[simp] theorem State.pop_disp : (s.pop).disp = s.disp := rfl
@[simp] theorem State.pop_mem : (s.pop).mem = s.mem := rfl
@[simp] theorem State.pop_fault : (s.pop).fault = s.fault := rfl
@[simp] theorem State.pop_variant : (s.pop).variant = s.variant := rfl
@[simp] theorem State.pop_redraw : (s.pop).redraw = s.redraw := rfl
@[simp] theorem State.pop_inputs : (s.pop).inputs = s.inputs := rfl
@[simp] theorem State.pop_schedule : (s.pop).schedule = s.schedule := rfl
@[simp] theorem State.pop_draws : (s.pop).draws = s.draws := rfl
@[simp] theorem State.pop_loadable : (s.pop).loadable = s.loadable := rfl

/-! ### tick -/

@[simp] theorem State.tick_v : (s.tick).v = s.v := rfl
@[simp] theorem State.tick_index : (s.tick).index = s.index := rfl
@[simp] theorem State.tick_pc : (s.tick).pc = s.pc := rfl
@[simp] theorem State.tick_stack : (s.tick).stack = s.stack := rfl
@[simp] theorem State.tick_stackUsed : (s.tick).stackUsed = s.stackUsed := rfl
@[simp] theorem State.tick_dt : (s.tick).dt = countDown s.dt := rfl
@[simp] theorem State.tick_st : (s.tick).st = countDown s.st := rfl
@[simp] theorem State.tick_disp : (s.tick).disp = s.disp := rfl
@[simp] theorem State.tick_mem : (s.tick).mem = s.mem := rfl
@[simp] theorem State.tick_fault : (s.tick).fault = s.fault := rfl
@[simp] theorem State.tick_variant : (s.tick).variant = s.variant := rfl
@[simp] theorem State.tick_redraw : (s.tick).redraw = s.redraw := rfl
@[simp] theorem State.tick_inputs : (s.tick).inputs = s.inputs := rfl
@[simp] theorem State.tick_schedule : (s.tick).schedule = s.schedule := rfl
@[simp] theorem State.tick_draws : (s.tick).draws = s.draws := rfl
@[simp] theorem State.tick_loadable : (s.tick).loadable = s.loadable := rfl

/-! ### ticks -/

@[simp] theorem State.ticks_v (n : Nat) : (State.ticks n s).v = s.v := rfl
@[simp] theorem State.ticks_index (n : Nat) : (State.ticks n s).index = s.index := rfl
@[simp] theorem State.ticks_pc (n : Nat) : (State.ticks n s).pc = s.pc := rfl
@[simp] theorem State.ticks_stack (n : Nat) : (State.ticks n s).stack = s.stack := rfl
@[simp] theorem State.ticks_stackUsed (n : Nat) : (State.ticks n s).stackUsed = s.stackUsed := rfl
@[simp] theorem State.ticks_dt (n : Nat) : (State.ticks n s).dt = countDownBy n s.dt := rfl
@[simp] theorem State.ticks_st (n : Nat) : (State.ticks n s).st = countDownBy n s.st := rfl
@[simp] theorem State.ticks_disp (n : Nat) : (State.ticks n s).disp = s.disp := rfl
@[simp] theorem State.ticks_mem (n : Nat) : (State.ticks n s).mem = s.mem := rfl
@[simp] theorem State.ticks_fault (n : Nat) : (State.ticks n s).fault = s.fault := rfl
@[simp] theorem State.ticks_variant (n : Nat) : (State.ticks n s).variant = s.variant := rfl
@[simp] theorem State.ticks_redraw (n : Nat) : (State.ticks n s).redraw = s.redraw := rfl
@[simp] theorem State.ticks_inputs (n : Nat) : (State.ticks n s).inputs = s.inputs := rfl
@[simp] theorem State.ticks_schedule (n : Nat) : (State.ticks n s).schedule = s.schedule := rfl
@[simp] theorem State.ticks_draws (n : Nat) : (State.ticks n s).draws = s.draws := rfl
@[simp] theorem State.ticks_loadable (n : Nat) : (State.ticks n s).loadable = s.loadable := rfl

/-! ### setInputs -/

@[simp] theorem State.setInputs_v (i : Inputs) : (s.setInputs i).v = s.v := rfl
@[simp] theorem State.setInputs_index (i : Inputs) : (s.setInputs i).index = s.index := rfl
@[simp] theorem State.setInputs_pc (i : Inputs) : (s.setInputs i).pc = s.pc := rfl
@[simp] theorem State.setInputs_stack (i : Inputs) : (s.setInputs i).stack = s.stack := rfl
@[simp] theorem State.setInputs_stackUsed (i : Inputs) : (s.setInputs i).stackUsed = s.stackUsed := rfl
@[simp] theorem State.setInputs_dt (i : Inputs) : (s.setInputs i).dt = s.dt := rfl
@[simp] theorem State.setInputs_st (i : Inputs) : (s.setInputs i).st = s.st := rfl
@[simp] theorem State.setInputs_disp (i : Inputs) : (s.setInputs i).disp = s.disp := rfl
@[simp] theorem State.setInputs_mem (i : Inputs) : (s.setInputs i).mem = s.mem := rfl
@[simp] theorem State.setInputs_fault (i : Inputs) : (s.setInputs i).fault = s.fault := rfl
@[simp] theorem State.setInputs_variant (i : Inputs) : (s.setInputs i).variant = s.variant := rfl
@[simp] theorem State.setInputs_redraw (i : Inputs) : (s.setInputs i).redraw = s.redraw := rfl
@[simp] theorem State.setInputs_inputs (i : Inputs) : (s.setInputs i).inputs = i := rfl
@[simp] theorem State.setInputs_schedule (i : Inputs) : (s.setInputs i).schedule = s.schedule := rfl
@[simp] theorem State.setInputs_draws (i : Inputs) : (s.setInputs i).draws = s.draws := rfl
@[simp] theorem State.setInputs_loadable (i : Inputs) : (s.setInputs i).loadable = s.loadable := rfl

/-! ### popTurn -/

@[simp] theorem State.popTurn_v : (s.popTurn).v = s.v := by unfold State.popTurn; split <;> rfl
@[simp] theorem State.popTurn_index : (s.popTurn).index = s.index := by unfold State.popTurn; split <;> rfl
@[simp] theorem State.popTurn_pc : (s.popTurn).pc = s.pc := by unfold State.popTurn; split <;> rfl
@[simp] theorem State.popTurn_stack : (s.popTurn).stack = s.stack := by unfold State.popTurn; split <;> rfl
@[simp] theorem State.popTurn_stackUsed :
    (s.popTurn).stackUsed = s.stackUsed := by unfold State.popTurn; split <;> rfl
@[simp] theorem State.popTurn_dt : (s.popTurn).dt = s.dt := by unfold State.popTurn; split <;> rfl
@[simp] theorem State.popTurn_st : (s.popTurn).st = s.st := by unfold State.popTurn; split <;> rfl
@[simp] theorem State.popTurn_disp : (s.popTurn).disp = s.disp := by unfold State.popTurn; split <;> rfl
@[simp] theorem State.popTurn_mem : (s.popTurn).mem = s.mem := by unfold State.popTurn; split <;> rfl
@[simp] theorem State.popTurn_fault : (s.popTurn).fault = s.fault := by unfold State.popTurn; split <;> rfl
@[simp] theorem State.popTurn_variant : (s.popTurn).variant = s.variant := by unfold State.popTurn; split <;> rfl
@[simp] theorem State.popTurn_redraw : (s.popTurn).redraw = s.redraw := by unfold State.popTurn; split <;> rfl
@[simp] theorem State.popTurn_inputs : (s.popTurn).inputs = s.inputs := by unfold State.popTurn; split <;> rfl
@[simp] theorem State.popTurn_loadable : (s.popTurn).loadable = s.loadable := by unfold State.popTurn; split <;> rfl

/-! ### hostTurn -/

@[simp] theorem State.hostTurn_v : (s.hostTurn).v = s.v := by simp [State.hostTurn]
@[simp] theorem State.hostTurn_index : (s.hostTurn).index = s.index := by simp [State.hostTurn]
@[simp] theorem State.hostTurn_pc : (s.hostTurn).pc = s.pc := by simp [State.hostTurn]
@[simp] theorem State.hostTurn_stack : (s.hostTurn).stack = s.stack := by simp [State.hostTurn]
@[simp] theorem State.hostTurn_stackUsed : (s.hostTurn).stackUsed = s.stackUsed := by simp [State.hostTurn]
@[simp] theorem State.hostTurn_dt : (s.hostTurn).dt = countDownBy s.nextTurn.ticks s.dt := by simp [State.hostTurn]
@[simp] theorem State.hostTurn_st : (s.hostTurn).st = countDownBy s.nextTurn.ticks s.st := by simp [State.hostTurn]
@[simp] theorem State.hostTurn_disp : (s.hostTurn).disp = s.disp := by simp [State.hostTurn]
@[simp] theorem State.hostTurn_mem : (s.hostTurn).mem = s.mem := by simp [State.hostTurn]
@[simp] theorem State.hostTurn_fault : (s.hostTurn).fault = s.fault := by simp [State.hostTurn]
@[simp] theorem State.hostTurn_variant : (s.hostTurn).variant = s.variant := by simp [State.hostTurn]
@[simp] theorem State.hostTurn_redraw : (s.hostTurn).redraw = s.redraw := by simp [State.hostTurn]
@[simp] theorem State.hostTurn_inputs : (s.hostTurn).inputs = s.nextTurn.inputs := by simp [State.hostTurn]
@[simp] theorem State.hostTurn_schedule : (s.hostTurn).schedule = s.popTurn.schedule := by simp [State.hostTurn]
@[simp] theorem State.hostTurn_draws : (s.hostTurn).draws = s.popTurn.draws := by simp [State.hostTurn]
@[simp] theorem State.hostTurn_loadable : (s.hostTurn).loadable = s.loadable := by simp [State.hostTurn]

/-! ### closeLoad -/

@[simp] theorem State.closeLoad_v : (s.closeLoad).v = s.v := rfl
@[simp] theorem State.closeLoad_index : (s.closeLoad).index = s.index := rfl
@[simp] theorem State.closeLoad_pc : (s.closeLoad).pc = s.pc := rfl
@[simp] theorem State.closeLoad_stack : (s.closeLoad).stack = s.stack := rfl
@[simp] theorem State.closeLoad_stackUsed : (s.closeLoad).stackUsed = s.stackUsed := rfl
@[simp] theorem State.closeLoad_dt : (s.closeLoad).dt = s.dt := rfl
@[simp] theorem State.closeLoad_st : (s.closeLoad).st = s.st := rfl
@[simp] theorem State.closeLoad_disp : (s.closeLoad).disp = s.disp := rfl
@[simp] theorem State.closeLoad_mem : (s.closeLoad).mem = s.mem := rfl
@[simp] theorem State.closeLoad_fault : (s.closeLoad).fault = s.fault := rfl
@[simp] theorem State.closeLoad_variant : (s.closeLoad).variant = s.variant := rfl
@[simp] theorem State.closeLoad_redraw : (s.closeLoad).redraw = s.redraw := rfl
@[simp] theorem State.closeLoad_inputs : (s.closeLoad).inputs = s.inputs := rfl
@[simp] theorem State.closeLoad_schedule : (s.closeLoad).schedule = s.schedule := rfl
@[simp] theorem State.closeLoad_draws : (s.closeLoad).draws = s.draws := rfl
@[simp] theorem State.closeLoad_loadable : (s.closeLoad).loadable = false := rfl

/-! ### stoppedStep -/

@[simp] theorem State.stoppedStep_v : (s.stoppedStep).v = s.v := rfl
@[simp] theorem State.stoppedStep_index : (s.stoppedStep).index = s.index := rfl
@[simp] theorem State.stoppedStep_pc : (s.stoppedStep).pc = s.pc := rfl
@[simp] theorem State.stoppedStep_stack : (s.stoppedStep).stack = s.stack := rfl
@[simp] theorem State.stoppedStep_stackUsed : (s.stoppedStep).stackUsed = s.stackUsed := rfl
@[simp] theorem State.stoppedStep_dt : (s.stoppedStep).dt = s.dt := rfl
@[simp] theorem State.stoppedStep_st : (s.stoppedStep).st = s.st := rfl
@[simp] theorem State.stoppedStep_disp : (s.stoppedStep).disp = s.disp := rfl
@[simp] theorem State.stoppedStep_mem : (s.stoppedStep).mem = s.mem := rfl
@[simp] theorem State.stoppedStep_fault : (s.stoppedStep).fault = s.fault := rfl
@[simp] theorem State.stoppedStep_variant : (s.stoppedStep).variant = s.variant := rfl
@[simp] theorem State.stoppedStep_redraw : (s.stoppedStep).redraw = .noChange := rfl
@[simp] theorem State.stoppedStep_inputs : (s.stoppedStep).inputs = s.inputs := rfl
@[simp] theorem State.stoppedStep_schedule : (s.stoppedStep).schedule = s.schedule := rfl
@[simp] theorem State.stoppedStep_draws : (s.stoppedStep).draws = s.draws := rfl
@[simp] theorem State.stoppedStep_loadable : (s.stoppedStep).loadable = s.loadable := rfl

/-! ### readyToFetch -/

@[simp] theorem State.readyToFetch_v : (s.readyToFetch).v = s.v := rfl
@[simp] theorem State.readyToFetch_index : (s.readyToFetch).index = s.index := rfl
@[simp] theorem State.readyToFetch_stack : (s.readyToFetch).stack = s.stack := rfl
@[simp] theorem State.readyToFetch_stackUsed : (s.readyToFetch).stackUsed = s.stackUsed := rfl
@[simp] theorem State.readyToFetch_dt : (s.readyToFetch).dt = s.dt := rfl
@[simp] theorem State.readyToFetch_st : (s.readyToFetch).st = s.st := rfl
@[simp] theorem State.readyToFetch_disp : (s.readyToFetch).disp = s.disp := rfl
@[simp] theorem State.readyToFetch_mem : (s.readyToFetch).mem = s.mem := rfl
@[simp] theorem State.readyToFetch_fault : (s.readyToFetch).fault = .noFault := rfl
@[simp] theorem State.readyToFetch_variant : (s.readyToFetch).variant = s.variant := rfl
@[simp] theorem State.readyToFetch_redraw : (s.readyToFetch).redraw = s.redraw := rfl
@[simp] theorem State.readyToFetch_inputs : (s.readyToFetch).inputs = s.inputs := rfl
@[simp] theorem State.readyToFetch_schedule : (s.readyToFetch).schedule = s.schedule := rfl
@[simp] theorem State.readyToFetch_draws : (s.readyToFetch).draws = s.draws := rfl
@[simp] theorem State.readyToFetch_loadable : (s.readyToFetch).loadable = s.loadable := rfl

/-! ### Reading a register after an update that writes none -/

@[simp] theorem State.reg_setIndex (k : Digit) (a : Word) : (s.setIndex a).reg k = s.reg k := by simp [State.reg]
@[simp] theorem State.reg_setDt (k : Digit) (b : Byte) : (s.setDt b).reg k = s.reg k := by simp [State.reg]
@[simp] theorem State.reg_setSt (k : Digit) (b : Byte) : (s.setSt b).reg k = s.reg k := by simp [State.reg]
@[simp] theorem State.reg_setDisp (k : Digit) (d : Vector (BitVec 64) 32) : (s.setDisp d).reg k = s.reg k := by simp [State.reg]
@[simp] theorem State.reg_setMem (k : Digit) (m : Memory) : (s.setMem m).reg k = s.reg k := by simp [State.reg]
@[simp] theorem State.reg_goTo (k : Digit) (p : Word) : (s.goTo p).reg k = s.reg k := by simp [State.reg]
@[simp] theorem State.reg_advance (k : Digit) : (s.advance).reg k = s.reg k := by simp [State.reg]
@[simp] theorem State.reg_skipIf (k : Digit) (c : Bool) : (s.skipIf c).reg k = s.reg k := by simp [State.reg]
@[simp] theorem State.reg_signalRedraw (k : Digit) : (s.signalRedraw).reg k = s.reg k := by simp [State.reg]
@[simp] theorem State.reg_takeFault (k : Digit) (f : FaultLatch) : (s.takeFault f).reg k = s.reg k := by simp [State.reg]
@[simp] theorem State.reg_push (k : Digit) (p : Word) : (s.push p).reg k = s.reg k := by simp [State.reg]
@[simp] theorem State.reg_pop (k : Digit) : (s.pop).reg k = s.reg k := by simp [State.reg]
@[simp] theorem State.reg_tick (k : Digit) : (s.tick).reg k = s.reg k := by simp [State.reg]
@[simp] theorem State.reg_ticks (k : Digit) (n : Nat) : (State.ticks n s).reg k = s.reg k := by simp [State.reg]
@[simp] theorem State.reg_setInputs (k : Digit) (i : Inputs) : (s.setInputs i).reg k = s.reg k := by simp [State.reg]
@[simp] theorem State.reg_popTurn (k : Digit) : (s.popTurn).reg k = s.reg k := by simp [State.reg]
@[simp] theorem State.reg_hostTurn (k : Digit) : (s.hostTurn).reg k = s.reg k := by simp [State.reg]
@[simp] theorem State.reg_closeLoad (k : Digit) : (s.closeLoad).reg k = s.reg k := by simp [State.reg]
@[simp] theorem State.reg_stoppedStep (k : Digit) : (s.stoppedStep).reg k = s.reg k := by simp [State.reg]
@[simp] theorem State.reg_readyToFetch (k : Digit) : (s.readyToFetch).reg k = s.reg k := by simp [State.reg]

end Sys2Proof.Machine
end

