-- ==== Sys2Proof/Laws/Memory.lean ====
section
/-! SUPPORT. Reading and writing memory: a read after a write, what a write leaves alone, the canonical form kept by every
operation, and what a checked access can answer. -/

namespace Sys2Proof.Machine

/-! ### The canonical form -/

theorem Memory.wfFrom_cons {lo k : Nat} {b : Byte} {m : Memory} :
    Memory.wfFrom lo ((k, b) :: m) = true ↔
      lo ≤ k ∧ k < Config.memSize ∧ b ≠ unlisted k ∧ Memory.wfFrom (k + 1) m = true := by
  simp [Memory.wfFrom, and_assoc]

theorem Memory.wfFrom_mono {lo lo' : Nat} {m : Memory} (h : lo' ≤ lo) (hm : Memory.wfFrom lo m = true) :
    Memory.wfFrom lo' m = true := by
  cases m with
  | nil => rfl
  | cons c m =>
    obtain ⟨k, b⟩ := c
    rw [Memory.wfFrom_cons] at hm ⊢
    exact ⟨by omega, hm.2⟩

theorem Memory.read_of_lt {lo a : Nat} {m : Memory} (hm : Memory.wfFrom lo m = true) (h : a < lo) :
    Memory.read m a = unlisted a := by
  induction m generalizing lo with
  | nil => rfl
  | cons c m ih =>
    obtain ⟨k, b⟩ := c
    rw [Memory.wfFrom_cons] at hm
    rw [Memory.read, if_neg (by omega)]
    exact ih hm.2.2.2 (by omega)

theorem Memory.read_cons_self (a : Nat) (v : Byte) {m : Memory} (h : Memory.read m a = unlisted a) :
    Memory.read (Memory.cons a v m) a = v := by
  unfold Memory.cons
  split
  · next hv => rw [h, hv]
  · simp [Memory.read]

theorem Memory.read_cons_ne {a b : Nat} (v : Byte) (m : Memory) (h : a ≠ b) :
    Memory.read (Memory.cons a v m) b = Memory.read m b := by
  unfold Memory.cons
  split
  · rfl
  · simp [Memory.read, h]

theorem Memory.wfFrom_consCell {lo a : Nat} (v : Byte) {m : Memory} (hlo : lo ≤ a) (ha : a < Config.memSize)
    (hm : Memory.wfFrom (a + 1) m = true) : Memory.wfFrom lo (Memory.cons a v m) = true := by
  unfold Memory.cons
  split
  · exact Memory.wfFrom_mono (by omega) hm
  · next hv => exact Memory.wfFrom_cons.2 ⟨hlo, ha, hv, hm⟩

/-! ### One byte -/

/-- A read after a write to the same address gives the byte written. -/
theorem Memory.read_write_self {lo : Nat} {m : Memory} (hm : Memory.wfFrom lo m = true) (a : Nat) (v : Byte) :
    Memory.read (Memory.write m a v) a = v := by
  induction m generalizing lo with
  | nil => exact Memory.read_cons_self a v rfl
  | cons c m ih =>
    obtain ⟨k, b⟩ := c
    have hw := hm
    rw [Memory.wfFrom_cons] at hm
    unfold Memory.write
    split
    · next h =>
      exact Memory.read_cons_self a v
        (Memory.read_of_lt (Memory.wfFrom_cons.2 ⟨Nat.le_refl k, hm.2⟩) h)
    · split
      · next h => exact Memory.read_cons_self a v (Memory.read_of_lt hm.2.2.2 (by omega))
      · next h => rw [Memory.read, if_neg (by omega)]; exact ih hm.2.2.2

/-- A write leaves every other address alone, whatever the list. -/
theorem Memory.read_write_ne (m : Memory) {a b : Nat} (v : Byte) (h : a ≠ b) :
    Memory.read (Memory.write m a v) b = Memory.read m b := by
  induction m with
  | nil => exact Memory.read_cons_ne v [] h
  | cons c m ih =>
    obtain ⟨k, w⟩ := c
    unfold Memory.write
    split
    · exact Memory.read_cons_ne v _ h
    · split
      · next hk => subst hk; rw [Memory.read_cons_ne v _ h, Memory.read, if_neg h]
      · simp [Memory.read, ih]

theorem Memory.wfFrom_write {lo a : Nat} {m : Memory} (v : Byte) (hlo : lo ≤ a) (ha : a < Config.memSize)
    (hm : Memory.wfFrom lo m = true) : Memory.wfFrom lo (Memory.write m a v) = true := by
  induction m generalizing lo with
  | nil => exact Memory.wfFrom_consCell v hlo ha rfl
  | cons c m ih =>
    obtain ⟨k, b⟩ := c
    have hw := hm
    rw [Memory.wfFrom_cons] at hm
    unfold Memory.write
    split
    · next h =>
      exact Memory.wfFrom_consCell v hlo ha (Memory.wfFrom_cons.2 ⟨by omega, hm.2⟩)
    · split
      · next h => subst h; exact Memory.wfFrom_consCell v hlo ha hm.2.2.2
      · next h => exact Memory.wfFrom_cons.2 ⟨hm.1, hm.2.1, hm.2.2.1, ih (by omega) hm.2.2.2⟩

/-- A write inside memory keeps the canonical form. -/
theorem Memory.wf_write {a : Nat} {m : Memory} (v : Byte) (ha : a < Config.memSize) (hm : m.wf = true) :
    Memory.wf (Memory.write m a v) = true :=
  Memory.wfFrom_write v (Nat.zero_le a) ha hm

/-! ### Ranges -/

/-- The bytes outside a stored range are left alone, whatever the list. -/
theorem Memory.read_writeBytes_outside (m : Memory) (lo : Nat) (bs : List Byte) {a : Nat}
    (h : a < lo ∨ lo + bs.length ≤ a) : Memory.read (Memory.writeBytes m lo bs) a = Memory.read m a := by
  induction bs generalizing m lo with
  | nil => rfl
  | cons b bs ih =>
    simp only [List.length_cons] at h
    rw [Memory.writeBytes, ih _ _ (by omega), Memory.read_write_ne _ _ (by omega)]

theorem Memory.wf_writeBytes {m : Memory} {lo : Nat} {bs : List Byte} (hm : m.wf = true)
    (h : lo + bs.length ≤ Config.memSize) : Memory.wf (Memory.writeBytes m lo bs) = true := by
  induction bs generalizing m lo with
  | nil => exact hm
  | cons b bs ih =>
    simp only [List.length_cons] at h
    exact ih (Memory.wf_write b (by omega) hm) (by omega)

/-- A read after a store of a range gives the bytes stored, in ascending order. -/
theorem Memory.read_writeBytes_inside {m : Memory} {lo : Nat} {bs : List Byte} (hm : m.wf = true)
    (h : lo + bs.length ≤ Config.memSize) (k : Nat) (hk : k < bs.length) :
    Memory.read (Memory.writeBytes m lo bs) (lo + k) = bs[k] := by
  induction bs generalizing m lo k with
  | nil => exact absurd hk (by simp)
  | cons b bs ih =>
    simp only [List.length_cons] at h hk
    rw [Memory.writeBytes]
    cases k with
    | zero =>
      rw [Memory.read_writeBytes_outside _ _ _ (by omega)]
      exact Memory.read_write_self hm _ _
    | succ k =>
      have e : lo + (k + 1) = (lo + 1) + k := by omega
      rw [e, ih (Memory.wf_write b (by omega) hm) (by omega) k (by omega)]
      rfl

/-- `CheckRange` passes iff there is no address to check or the highest one is at most 0xFFF. -/
theorem inRange_iff {lo n : Nat} : inRange lo n = true ↔ n = 0 ∨ lo + n ≤ Config.memSize := by
  simp [inRange]

@[simp] theorem Memory.length_readBytes (m : Memory) (lo n : Nat) : (m.readBytes lo n).length = n := by
  simp [Memory.readBytes]

@[simp] theorem Memory.getElem_readBytes (m : Memory) (lo n k : Nat) (h : k < (m.readBytes lo n).length) :
    (m.readBytes lo n)[k] = Memory.read m (lo + k) := by
  simp [Memory.readBytes]

/-- What a checked read answers. -/
theorem Memory.readRange_eq (m : Memory) (lo n : Nat) :
    m.readRange lo n = if n = 0 ∨ lo + n ≤ Config.memSize then some (m.readBytes lo n) else none := by
  simp [Memory.readRange, inRange]

/-- What a checked write answers. -/
theorem Memory.writeRange_eq (m : Memory) (lo : Nat) (bs : List Byte) :
    m.writeRange lo bs =
      if bs.length = 0 ∨ lo + bs.length ≤ Config.memSize then some (m.writeBytes lo bs) else none := by
  simp [Memory.writeRange, inRange]

theorem Memory.wf_writeRange {m m' : Memory} {lo : Nat} {bs : List Byte} (hm : m.wf = true)
    (h : m.writeRange lo bs = some m') : m'.wf = true := by
  rw [Memory.writeRange_eq] at h
  split at h
  · next hr =>
    cases h
    rcases hr with hr | hr
    · cases bs with
      | nil => exact hm
      | cons b bs => simp at hr
    · exact Memory.wf_writeBytes hm hr
  · cases h

theorem State.reset_memory_wf : State.reset.mem.wf = true := rfl

theorem resetMemory_wf (rom : Vector Byte 80) : (resetMemory rom).wf = true :=
  Memory.wf_writeBytes rfl (by simp [Config.glyphBase, Config.memSize])

end Sys2Proof.Machine
end

