-- ==== Sys2Proof/Laws/Ops.lean ====
section
/-! SUPPORT. One lemma per shared operation on registers, flags and the stack: everything it can do. -/

namespace Sys2Proof.Machine

/-! ### Registers -/

/-- A write to one register: it holds the value, every other register is unchanged. -/
theorem State.reg_setReg (s : State) (x k : Digit) (b : Byte) :
    (s.setReg x b).reg k = if k = x then b else s.reg k := by
  unfold State.reg State.setReg
  rw [Vector.getElem_set]
  by_cases h : x.toNat = k.toNat
  · simp [BitVec.eq_of_toNat_eq h]
  · have : k ≠ x := fun e => h (by rw [e])
    simp [h, this]

/-- A result and a flag: VF ends with the flag, also when it was the destination (43_alu R120). -/
theorem State.reg_setRegFlag (s : State) (x k : Digit) (b f : Byte) :
    (s.setRegFlag x b f).reg k = if k = vf then f else if k = x then b else s.reg k := by
  simp [State.setRegFlag, State.reg_setReg]

/-- A logic result: VF is cleared after it in Legacy, and is an ordinary register in Modern (43_alu R112 to R114, R120). -/
theorem State.reg_setLogic (s : State) (x k : Digit) (b : Byte) :
    (s.setLogic x b).reg k =
      if s.variant = .legacy ∧ k = vf then 0x00#8 else if k = x then b else s.reg k := by
  unfold State.setLogic
  split
  · next h => simp [h, State.reg_setRegFlag]
  · next h => simp [h, State.reg_setReg]

/-- A block load: register k holds byte k, and registers past the last byte are unchanged. -/
theorem State.reg_setRegs (s : State) (k : Digit) (bs : List Byte) :
    (s.setRegs bs).reg k = bs.getD k.toNat (s.reg k) := by
  simp [State.reg, State.setRegs]

@[simp] theorem State.length_regsTo (s : State) (x : Digit) : (s.regsTo x).length = x.toNat + 1 := by
  have := x.isLt
  simp [State.regsTo]; omega

theorem State.getElem_regsTo (s : State) (x k : Digit) (h : k.toNat < (s.regsTo x).length) :
    (s.regsTo x)[k.toNat] = s.reg k := by
  simp [State.regsTo, State.reg]

theorem reg_of_v_eq {s t : State} (h : t.v = s.v) (k : Digit) : t.reg k = s.reg k := by
  simp [State.reg, h]

@[simp] theorem length_bcdDigits (b : Byte) : (bcdDigits b).length = 3 := rfl

/-! ### Flags -/

theorem flagByte_toNat (b : Bool) : (flagByte b).toNat = if b then 1 else 0 := by cases b <;> rfl

theorem flagByte_eq_one (b : Bool) : flagByte b = 0x01#8 ↔ b = true := by cases b <;> decide

theorem flagByte_eq_zero (b : Bool) : flagByte b = 0x00#8 ↔ b = false := by cases b <;> decide

/-! ### The stack -/

/-- The push below a full stack: SP rises by one and the new entry is the last; nothing else of the stack changes. -/
theorem State.push_of_lt {s : State} (p : Word) (h : s.stackUsed.val < 16) :
    (s.push p).stackUsed.val = s.stackUsed.val + 1 ∧ (s.push p).stack = s.stack.set s.stackUsed.val p := by
  simp [State.push, h]

/-- Entry k after the push below a full stack. -/
theorem State.getElem_push_stack {s : State} (p : Word) (h : s.stackUsed.val < 16) (k : Nat) (hk : k < 16) :
    (s.push p).stack[k] = if s.stackUsed.val = k then p else s.stack[k] := by
  simp only [(State.push_of_lt p h).2, Vector.getElem_set]

/-- The push on a full stack does nothing. -/
theorem State.push_of_full {s : State} (p : Word) (h : s.stackUsed.val = 16) : s.push p = s := by
  simp [State.push, h]

@[simp] theorem State.pop_stackUsed (s : State) : s.pop.stackUsed.val = s.stackUsed.val - 1 := rfl

/-- The top is missing exactly when the stack is empty. -/
theorem State.top_of_empty {s : State} (h : s.stackUsed.val = 0) : s.top = none := by simp [State.top, h]

theorem State.top_of_pos {s : State} (h : s.stackUsed.val ≠ 0) :
    s.top = some (s.stack[s.stackUsed.val - 1]'(by omega)) := by simp [State.top, h]

end Sys2Proof.Machine
end

