-- ==== Sys2Proof/Laws/Events.lean ====
section
/-! SUPPORT. The events: the timers' count-down as arithmetic, ticks one after the other, what fetch delivers, and every way
a `STEP` event and a step of the interface can end. -/

namespace Sys2Proof.Machine

/-! ### The timers -/

/-- A timer never goes below zero (60_exceptions R180). -/
theorem countDown_toNat (b : Byte) : (countDown b).toNat = b.toNat - 1 := by
  unfold countDown
  split
  · next h => subst h; rfl
  · next h =>
    have hb : b.toNat ≠ 0 := fun e => h (BitVec.eq_of_toNat_eq e)
    have := b.isLt
    rw [BitVec.toNat_sub]
    simp
    omega

theorem countDownBy_toNat (n : Nat) (b : Byte) : (countDownBy n b).toNat = b.toNat - n := by
  induction n generalizing b with
  | zero => rfl
  | succ n ih => rw [countDownBy, ih, countDown_toNat]; omega

/-- Ticks in a row are ticks one after the other. -/
theorem State.ticks_succ (n : Nat) (s : State) : State.ticks (n + 1) s = State.ticks n s.tick := rfl

theorem State.ticks_zero (s : State) : State.ticks 0 s = s := rfl

/-! ### Fetch -/

/-- Fetch delivers the two bytes at PC and PC + 1 unless PC is above 0xFFE (20_memory R41, R42). -/
theorem State.fetch_eq (s : State) :
    s.fetch = if s.pc.toNat ≤ 0xFFE then some [s.mem.read s.pc.toNat, s.mem.read (s.pc.toNat + 1)] else none := by
  have e : (s.pc.toNat + 2 ≤ Config.memSize) = (s.pc.toNat ≤ 0xFFE) := by
    simp only [Config.memSize, eq_iff_iff]; omega
  rw [State.fetch, Memory.readRange_eq]
  simp only [OfNat.ofNat_ne_zero, false_or, e]
  rfl

/-- A running machine with PC in range runs the instruction of its two bytes, high byte first. -/
theorem fetchExec_of_le {s : State} (h : s.pc.toNat ≤ 0xFFE) :
    fetchExec s =
      exec (decodeWord (wordOfBytes (s.mem.read s.pc.toNat) (s.mem.read (s.pc.toNat + 1)))) s := by
  simp [fetchExec, State.fetch_eq, h, decode]

/-- A PC above 0xFFE faults before anything is fetched (60_exceptions R171). -/
theorem fetchExec_of_gt {s : State} (h : ¬ s.pc.toNat ≤ 0xFFE) : fetchExec s = .next (s.takeFault .fetchRange) := by
  simp [fetchExec, State.fetch_eq, h]

/-- A machine made ready to fetch can fetch. -/
theorem State.readyToFetch_pc_le (s : State) : s.readyToFetch.pc.toNat ≤ 0xFFE := by
  by_cases h : s.pc.toNat + 2 ≤ Config.memSize
  · have e : s.readyToFetch.pc = s.pc := if_pos h
    rw [e]
    simp only [Config.memSize] at h
    omega
  · have e : s.readyToFetch.pc = 0x0200#16 := if_neg h
    rw [e]
    decide

/-! ### The step -/

theorem stepEvent_running {s : State} (h : s.fault = .noFault) :
    stepEvent s = onNext State.closeLoad (fetchExec s) := by simp [stepEvent, latchedStep, h]

/-- A stopped machine does nothing on a `STEP` (60_exceptions R174). -/
theorem stepEvent_stopped {s : State} (h : s.fault ≠ .noFault) : stepEvent s = .next s.stoppedStep.closeLoad := by
  unfold stepEvent latchedStep
  cases hf : s.fault with
  | noFault => exact absurd hf h
  | fetchRange => rfl
  | memRange => rfl

theorem onNext_next {f : State → State} {r : Result} {t : State} :
    onNext f r = .next t ↔ ∃ u, r = .next u ∧ t = f u := by
  cases r <;> simp [onNext, eq_comm]

/-- Every way a `STEP` event can go on: stopped, a fetch fault, or one instruction. -/
theorem stepEvent_cases {s t : State} (h : stepEvent s = .next t) :
    (s.fault ≠ .noFault ∧ t = s.stoppedStep.closeLoad) ∨
    (s.fault = .noFault ∧ 0xFFE < s.pc.toNat ∧ t = (s.takeFault .fetchRange).closeLoad) ∨
    (s.fault = .noFault ∧ s.pc.toNat ≤ 0xFFE ∧ ∃ u,
      exec (decodeWord (wordOfBytes (s.mem.read s.pc.toNat) (s.mem.read (s.pc.toNat + 1)))) s = .next u ∧
      t = u.closeLoad) := by
  by_cases hf : s.fault = .noFault
  · rw [stepEvent_running hf] at h
    by_cases hp : s.pc.toNat ≤ 0xFFE
    · rw [fetchExec_of_le hp, onNext_next] at h
      exact .inr (.inr ⟨hf, hp, h⟩)
    · rw [fetchExec_of_gt hp] at h
      obtain ⟨u, hu, rfl⟩ := onNext_next.1 h
      cases hu
      exact .inr (.inl ⟨hf, by omega, rfl⟩)
  · rw [stepEvent_stopped hf] at h
    cases h
    exact .inl ⟨hf, rfl⟩

/-- A step of the interface goes on exactly as its `STEP` event does, and then the host takes its turn. -/
theorem step_cases {s t : State} (h : step s = .next t) : ∃ u, stepEvent s = .next u ∧ t = u.hostTurn :=
  onNext_next.1 h

end Sys2Proof.Machine
end

