-- ==== Sys2Proof/Laws/Sprite.lean ====
section
/-! SUPPORT. The XOR-blit unit pixel by pixel: what one sprite byte sets, what the blit leaves in a pixel, and when the
collision detector fires. -/

namespace Sys2Proof.Machine

/-- Column c of a sprite row anchored at px: bit 7 - (c - px) for the eight columns from px, nothing elsewhere. -/
theorem getMsbD_spriteRow (px : Nat) (b : Byte) (c : Nat) (hc : c < 64) :
    (spriteRow px b).getMsbD c = (decide (px ≤ c ∧ c < px + 8) && b.getLsbD (7 - (c - px))) := by
  unfold spriteRow
  rw [BitVec.getMsbD_ushiftRight]
  by_cases h1 : px ≤ c
  · by_cases h2 : c < px + 8
    · have e1 : c - px < 64 := by omega
      have e2 : ¬ c < px := by omega
      have e3 : 64 - 1 - (c - px) - 56 = 7 - (c - px) := by omega
      have e4 : ¬ 64 - 1 - (c - px) < 56 := by omega
      have e5 : 63 - (c - px) < 64 := by omega
      simp [BitVec.getMsbD_eq_getLsbD, h1, h2, hc, e1, e2, e3, e4, e5]
    · have e1 : c - px < 64 := by omega
      have e4 : 64 - 1 - (c - px) < 56 := by omega
      simp [BitVec.getMsbD_eq_getLsbD, BitVec.getLsbD_shiftLeft, h2, e4]
  · simp [h1]

/-- Pixel (r, c) of the blitted display is the old pixel XOR the bit of the sprite mask. -/
theorem getMsbD_blit (d : Vector (BitVec 64) 32) (bytes : List Byte) (px py r c : Nat) (hr : r < 32) :
    ((blit d bytes px py)[r]?.getD 0#64).getMsbD c =
      ((d[r]?.getD 0#64).getMsbD c ^^ (spriteMask bytes px py r).getMsbD c) := by
  simp [blit, hr, BitVec.getMsbD_xor]

/-- The mask bit at row r and column c of a sprite read from memory. -/
theorem getMsbD_spriteMask (s : State) (lo n px py r c : Nat) (hc : c < 64) :
    (spriteMask (s.mem.readBytes lo n) px py r).getMsbD c = s.spriteBit lo n px py r c := by
  unfold spriteMask State.spriteBit
  by_cases h1 : py ≤ r
  · rw [if_pos h1, getMsbD_spriteRow _ _ _ hc]
    by_cases h2 : r < py + n
    · have h3 : r - py < n := by omega
      simp [h1, h2, h3, Memory.readBytes]
    · have h3 : ¬ r - py < n := by omega
      have h4 : n ≤ r - py := by omega
      simp [h1, h2, h4, Memory.readBytes]
  · simp [h1]

/-- A row meets a mask iff some column holds a bit of both. -/
theorem and_ne_zero_iff (a b : BitVec 64) :
    ((a &&& b) != 0#64) = true ↔ ∃ c, c < 64 ∧ a.getMsbD c = true ∧ b.getMsbD c = true := by
  rw [bne_iff_ne]
  constructor
  · intro h
    by_contra hn
    refine h (BitVec.eq_of_getMsbD_eq fun i hi => ?_)
    have := fun h => hn ⟨i, hi, h⟩
    rw [BitVec.getMsbD_and]
    simp only [BitVec.getMsbD_zero, Bool.and_eq_false_iff]
    by_contra hc
    simp at hc
    exact this hc
  · rintro ⟨c, _, ha, hb⟩ h
    have := congrArg (fun v => v.getMsbD c) h
    simp [BitVec.getMsbD_and, ha, hb] at this

/-- The collision detector fires iff some displayed pixel is lit and the sprite sets it (45_display R143). -/
theorem collides_iff (s : State) (lo n px py : Nat) :
    collides s.disp (s.mem.readBytes lo n) px py = true ↔
      ∃ r c, r < 32 ∧ c < 64 ∧ s.pixel r c = true ∧ s.spriteBit lo n px py r c = true := by
  simp only [collides, List.any_eq_true, List.mem_range, and_ne_zero_iff]
  constructor
  · rintro ⟨r, hr, c, hc, h1, h2⟩
    rw [getMsbD_spriteMask s lo n px py r c hc] at h2
    exact ⟨r, c, hr, hc, h1, h2⟩
  · rintro ⟨r, c, hr, hc, h1, h2⟩
    rw [← getMsbD_spriteMask s lo n px py r c hc] at h2
    exact ⟨r, hr, c, hc, h1, h2⟩

end Sys2Proof.Machine
end

