-- ==== Sys2Proof/Laws/Exec.lean ====
section
/-! SUPPORT. The six meanings that branch, each as one next state by a plain condition (every other meaning is one next state
by definition), and what a taken fault leaves. -/

namespace Sys2Proof.Machine

theorem execRet_eq (d : Digit) (s : State) :
    execRet d s =
      .next (if h : s.stackUsed.val = 0 then s.advance
        else s.pop.goTo (s.stack[s.stackUsed.val - 1]'(by omega))) := by
  by_cases h : s.stackUsed.val = 0
  · simp [execRet, State.top_of_empty h, h]
  · simp [execRet, State.top_of_pos h, h]

theorem execLdk_eq (x : Digit) (s : State) :
    execLdk x s =
      .next (if let some k := s.inputs.lastKey then (s.setReg x (k.setWidth 8)).advance else s.goTo s.pc) := by
  unfold execLdk
  cases s.inputs.lastKey <;> rfl

theorem execBcd_eq (x : Digit) (s : State) :
    execBcd x s =
      .next (if s.indexAddr + 3 ≤ Config.memSize then
          (s.setMem (s.mem.writeBytes s.indexAddr (bcdDigits (s.reg x)))).advance
        else s.takeFault .memRange) := by
  simp only [execBcd, Memory.writeRange_eq, length_bcdDigits, OfNat.ofNat_ne_zero, false_or]
  by_cases h : s.indexAddr + 3 ≤ Config.memSize <;> simp [h]

theorem execStm_eq (x : Digit) (s : State) :
    execStm x s =
      .next (if s.indexAddr + (x.toNat + 1) ≤ Config.memSize then
          ((s.setMem (s.mem.writeBytes s.indexAddr (s.regsTo x))).setIndex (s.indexAfterBlock x)).advance
        else s.takeFault .memRange) := by
  simp only [execStm, Memory.writeRange_eq, State.length_regsTo, Nat.add_one_ne_zero, false_or]
  by_cases h : s.indexAddr + (x.toNat + 1) ≤ Config.memSize <;> simp [h]

theorem execLdm_eq (x : Digit) (s : State) :
    execLdm x s =
      .next (if s.indexAddr + (x.toNat + 1) ≤ Config.memSize then
          ((s.setRegs (s.mem.readBytes s.indexAddr (x.toNat + 1))).setIndex (s.indexAfterBlock x)).advance
        else s.takeFault .memRange) := by
  simp only [execLdm, Memory.readRange_eq, Nat.add_one_ne_zero, false_or]
  by_cases h : s.indexAddr + (x.toNat + 1) ≤ Config.memSize <;> simp [h]

/-- The state after a `DRW` whose sprite lies in memory. -/
def State.drawn (s : State) (x y n : Digit) : State :=
  ((s.setDisp (blit s.disp (s.mem.readBytes s.indexAddr n.toNat) (s.anchorCol x) (s.anchorRow y))).setReg vf
    (flagByte (collides s.disp (s.mem.readBytes s.indexAddr n.toNat) (s.anchorCol x)
      (s.anchorRow y)))).advance.signalRedraw

theorem execDrw_eq (x y n : Digit) (s : State) :
    execDrw x y n s =
      .next (if n.toNat = 0 ∨ s.indexAddr + n.toNat ≤ Config.memSize then s.drawn x y n
        else s.takeFault .memRange) := by
  simp only [execDrw, Memory.readRange_eq]
  by_cases h : n.toNat = 0 ∨ s.indexAddr + n.toNat ≤ Config.memSize
  · rw [if_pos h, if_pos h]; rfl
  · rw [if_neg h, if_neg h]

/-- The display after a draw, pixel by pixel. -/
theorem State.pixel_drawn (s : State) (x y n : Digit) (r c : Nat) (hr : r < 32) (hc : c < 64) :
    (s.drawn x y n).pixel r c =
      (s.pixel r c ^^ s.spriteBit s.indexAddr n.toNat (s.anchorCol x) (s.anchorRow y) r c) := by
  have h := getMsbD_blit s.disp (s.mem.readBytes s.indexAddr n.toNat) (s.anchorCol x) (s.anchorRow y) r c hr
  rw [getMsbD_spriteMask s _ _ _ _ _ _ hc] at h
  simpa [State.drawn, State.pixel] using h

/-- The registers after a draw: VF holds the collision flag, every other one is unchanged. -/
theorem State.reg_drawn (s : State) (x y n k : Digit) :
    (s.drawn x y n).reg k = if k = vf then flagByte (collides s.disp (s.mem.readBytes s.indexAddr n.toNat)
      (s.anchorCol x) (s.anchorRow y)) else s.reg k := by
  simp only [State.drawn, State.reg_signalRedraw, State.reg_advance, State.reg_setReg, State.reg_setDisp]

/-- A taken fault changes the latch and the output, and nothing else (60_exceptions R174). -/
theorem State.takeFault_faultedOnly (s : State) (c : FaultLatch) : s.faultedOnly (s.takeFault c) c := by
  refine ⟨rfl, rfl, rfl, rfl, rfl, fun k _ => rfl, ?_⟩
  intro p hp
  cases p <;> simp [State.keeps] at hp ⊢

end Sys2Proof.Machine
end

