-- ==== Sys2Proof/Laws/PerInstr.lean ====
section
/-! SUPPORT. Facts about every instruction as syntax, one lemma per constructor. Family `RoundTrip`: the word of a
well-formed instruction decodes to it, every operand at every value. -/

namespace Sys2Proof

/-! ### The bits and the fields of a word put together from fields (30_encoding R61, R62) -/

theorem getLsbD_wordNNN (c : Digit) (a : Addr12) (i : Nat) :
    (wordNNN c a).getLsbD i = if i < 12 then a.getLsbD i else c.getLsbD (i - 12) :=
  BitVec.getLsbD_append (x := c) (y := a) (i := i)

theorem getLsbD_wordXNN (c x : Digit) (nn : Byte) (i : Nat) :
    (wordXNN c x nn).getLsbD i =
      if i < 8 then nn.getLsbD i else if i < 12 then x.getLsbD (i - 8) else c.getLsbD (i - 12) := by
  refine (getLsbD_wordNNN c (x ++ nn) i).trans ?_
  have h : (x ++ nn : Addr12).getLsbD i = if i < 8 then nn.getLsbD i else x.getLsbD (i - 8) :=
    BitVec.getLsbD_append (x := x) (y := nn) (i := i)
  rw [h]
  split_ifs <;> first | rfl | omega

theorem getLsbD_wordXYN (c x y n : Digit) (i : Nat) :
    (wordXYN c x y n).getLsbD i =
      if i < 4 then n.getLsbD i else if i < 8 then y.getLsbD (i - 4)
      else if i < 12 then x.getLsbD (i - 8) else c.getLsbD (i - 12) := by
  refine (getLsbD_wordXNN c x (y ++ n) i).trans ?_
  have h : (y ++ n : Byte).getLsbD i = if i < 4 then n.getLsbD i else y.getLsbD (i - 4) :=
    BitVec.getLsbD_append (x := y) (y := n) (i := i)
  rw [h]
  split_ifs <;> first | rfl | omega

@[simp] theorem classOf_wordNNN (c : Digit) (a : Addr12) : classOf (wordNNN c a) = c := by
  refine BitVec.eq_of_getLsbD_eq fun i hi => ?_
  simp only [classOf, BitVec.getLsbD_extractLsb', getLsbD_wordNNN, hi, decide_true, Bool.true_and]
  split_ifs <;> first | omega | (congr 1; omega)

@[simp] theorem nnnOf_wordNNN (c : Digit) (a : Addr12) : nnnOf (wordNNN c a) = a := by
  refine BitVec.eq_of_getLsbD_eq fun i hi => ?_
  simp only [nnnOf, BitVec.getLsbD_extractLsb', getLsbD_wordNNN, hi, decide_true, Bool.true_and]
  split_ifs <;> first | omega | (congr 1; omega)

@[simp] theorem nnOf_wordNNN (c : Digit) (a : Addr12) : nnOf (wordNNN c a) = a.setWidth 8 := by
  refine BitVec.eq_of_getLsbD_eq fun i hi => ?_
  have h : i < 12 := by omega
  simp [nnOf, getLsbD_wordNNN, hi, h]

@[simp] theorem classOf_wordXNN (c x : Digit) (nn : Byte) : classOf (wordXNN c x nn) = c := by
  refine BitVec.eq_of_getLsbD_eq fun i hi => ?_
  simp only [classOf, BitVec.getLsbD_extractLsb', getLsbD_wordXNN, hi, decide_true, Bool.true_and]
  split_ifs <;> first | omega | (congr 1; omega)

@[simp] theorem xOf_wordXNN (c x : Digit) (nn : Byte) : xOf (wordXNN c x nn) = x := by
  refine BitVec.eq_of_getLsbD_eq fun i hi => ?_
  simp only [xOf, BitVec.getLsbD_extractLsb', getLsbD_wordXNN, hi, decide_true, Bool.true_and]
  split_ifs <;> first | omega | (congr 1; omega)

@[simp] theorem nnOf_wordXNN (c x : Digit) (nn : Byte) : nnOf (wordXNN c x nn) = nn := by
  refine BitVec.eq_of_getLsbD_eq fun i hi => ?_
  simp only [nnOf, BitVec.getLsbD_extractLsb', getLsbD_wordXNN, hi, decide_true, Bool.true_and]
  split_ifs <;> first | omega | (congr 1; omega)

@[simp] theorem classOf_wordXYN (c x y n : Digit) : classOf (wordXYN c x y n) = c := by
  refine BitVec.eq_of_getLsbD_eq fun i hi => ?_
  simp only [classOf, BitVec.getLsbD_extractLsb', getLsbD_wordXYN, hi, decide_true, Bool.true_and]
  split_ifs <;> first | omega | (congr 1; omega)

@[simp] theorem xOf_wordXYN (c x y n : Digit) : xOf (wordXYN c x y n) = x := by
  refine BitVec.eq_of_getLsbD_eq fun i hi => ?_
  simp only [xOf, BitVec.getLsbD_extractLsb', getLsbD_wordXYN, hi, decide_true, Bool.true_and]
  split_ifs <;> first | omega | (congr 1; omega)

@[simp] theorem yOf_wordXYN (c x y n : Digit) : yOf (wordXYN c x y n) = y := by
  refine BitVec.eq_of_getLsbD_eq fun i hi => ?_
  simp only [yOf, BitVec.getLsbD_extractLsb', getLsbD_wordXYN, hi, decide_true, Bool.true_and]
  split_ifs <;> first | omega | (congr 1; omega)

@[simp] theorem nOf_wordXYN (c x y n : Digit) : nOf (wordXYN c x y n) = n := by
  refine BitVec.eq_of_getLsbD_eq fun i hi => ?_
  simp only [nOf, BitVec.getLsbD_extractLsb', getLsbD_wordXYN, hi, decide_true, Bool.true_and]
  split_ifs <;> first | omega | (congr 1; omega)

end Sys2Proof

namespace Sys2Proof.Laws.RoundTrip

open Sys2Proof

/-- The word of a well-formed instruction decodes to that instruction. -/
def Statement (i : Instr) : Prop := i.wellFormed = true → decodeWord (encodeWord i) = i

theorem cls (d : Digit) : Statement (.cls d) := by
  intro _
  simp [encodeWord, decodeWord, decodeClass0]

theorem ret (d : Digit) : Statement (.ret d) := by
  intro _
  simp [encodeWord, decodeWord, decodeClass0]

theorem sys (nnn : Addr12) : Statement (.sys nnn) := by
  intro h
  simp [Instr.wellFormed, matchedNn0] at h
  simp [encodeWord, decodeWord, decodeClass0, h]

theorem jp (nnn : Addr12) : Statement (.jp nnn) := by
  intro _
  simp [encodeWord, decodeWord]

theorem call (nnn : Addr12) : Statement (.call nnn) := by
  intro _
  simp [encodeWord, decodeWord]

theorem se (x : Digit) (nn : Byte) : Statement (.se x nn) := by
  intro _
  simp [encodeWord, decodeWord]

theorem sne (x : Digit) (nn : Byte) : Statement (.sne x nn) := by
  intro _
  simp [encodeWord, decodeWord]

theorem ser (x : Digit) (y : Digit) (d : Digit) : Statement (.ser x y d) := by
  intro _
  simp [encodeWord, decodeWord]

theorem ld (x : Digit) (nn : Byte) : Statement (.ld x nn) := by
  intro _
  simp [encodeWord, decodeWord]

theorem add (x : Digit) (nn : Byte) : Statement (.add x nn) := by
  intro _
  simp [encodeWord, decodeWord]

theorem mov (x : Digit) (y : Digit) : Statement (.mov x y) := by
  intro _
  simp [encodeWord, decodeWord, decodeClass8]

theorem or (x : Digit) (y : Digit) : Statement (.or x y) := by
  intro _
  simp [encodeWord, decodeWord, decodeClass8]

theorem and (x : Digit) (y : Digit) : Statement (.and x y) := by
  intro _
  simp [encodeWord, decodeWord, decodeClass8]

theorem xor (x : Digit) (y : Digit) : Statement (.xor x y) := by
  intro _
  simp [encodeWord, decodeWord, decodeClass8]

theorem addr (x : Digit) (y : Digit) : Statement (.addr x y) := by
  intro _
  simp [encodeWord, decodeWord, decodeClass8]

theorem sub (x : Digit) (y : Digit) : Statement (.sub x y) := by
  intro _
  simp [encodeWord, decodeWord, decodeClass8]

theorem shr (x : Digit) (y : Digit) : Statement (.shr x y) := by
  intro _
  simp [encodeWord, decodeWord, decodeClass8]

theorem subn (x : Digit) (y : Digit) : Statement (.subn x y) := by
  intro _
  simp [encodeWord, decodeWord, decodeClass8]

theorem shl (x : Digit) (y : Digit) : Statement (.shl x y) := by
  intro _
  simp [encodeWord, decodeWord, decodeClass8]

theorem nop8 (x : Digit) (y : Digit) (n : Digit) : Statement (.nop8 x y n) := by
  intro h
  simp [Instr.wellFormed, matchedN8] at h
  simp [encodeWord, decodeWord, decodeClass8, h]

theorem sner (x : Digit) (y : Digit) (d : Digit) : Statement (.sner x y d) := by
  intro _
  simp [encodeWord, decodeWord]

theorem ldi (nnn : Addr12) : Statement (.ldi nnn) := by
  intro _
  simp [encodeWord, decodeWord]

theorem jpv (nnn : Addr12) : Statement (.jpv nnn) := by
  intro _
  simp [encodeWord, decodeWord]

theorem rnd (x : Digit) (nn : Byte) : Statement (.rnd x nn) := by
  intro _
  simp [encodeWord, decodeWord]

theorem drw (x : Digit) (y : Digit) (n : Digit) : Statement (.drw x y n) := by
  intro _
  simp [encodeWord, decodeWord]

theorem skp (x : Digit) : Statement (.skp x) := by
  intro _
  simp [encodeWord, decodeWord, decodeClassE]

theorem sknp (x : Digit) : Statement (.sknp x) := by
  intro _
  simp [encodeWord, decodeWord, decodeClassE]

theorem nope (x : Digit) (nn : Byte) : Statement (.nope x nn) := by
  intro h
  simp [Instr.wellFormed, matchedNnE] at h
  simp [encodeWord, decodeWord, decodeClassE, h]

theorem ldvdt (x : Digit) : Statement (.ldvdt x) := by
  intro _
  simp [encodeWord, decodeWord, decodeClassF]

theorem ldk (x : Digit) : Statement (.ldk x) := by
  intro _
  simp [encodeWord, decodeWord, decodeClassF]

theorem lddt (x : Digit) : Statement (.lddt x) := by
  intro _
  simp [encodeWord, decodeWord, decodeClassF]

theorem ldst (x : Digit) : Statement (.ldst x) := by
  intro _
  simp [encodeWord, decodeWord, decodeClassF]

theorem addi (x : Digit) : Statement (.addi x) := by
  intro _
  simp [encodeWord, decodeWord, decodeClassF]

theorem ldf (x : Digit) : Statement (.ldf x) := by
  intro _
  simp [encodeWord, decodeWord, decodeClassF]

theorem bcd (x : Digit) : Statement (.bcd x) := by
  intro _
  simp [encodeWord, decodeWord, decodeClassF]

theorem stm (x : Digit) : Statement (.stm x) := by
  intro _
  simp [encodeWord, decodeWord, decodeClassF]

theorem ldm (x : Digit) : Statement (.ldm x) := by
  intro _
  simp [encodeWord, decodeWord, decodeClassF]

theorem nopf (x : Digit) (nn : Byte) : Statement (.nopf x nn) := by
  intro h
  simp [Instr.wellFormed, matchedNnF] at h
  simp [encodeWord, decodeWord, decodeClassF, h]

end Sys2Proof.Laws.RoundTrip
end

