-- ==== Sys2Proof/Tests/Slice0.lean ====
section
/-! SUPPORT. Tests, each about one step, and the witnesses of the statements' hypotheses. Expected values are those of
95_test_vectors (each test names its vector) or a word written out by hand from 30_encoding R61 to R64. -/

namespace Sys2Proof.Tests

open Sys2Proof Sys2Proof.Machine

/-! ### Helpers -/

/-- A state with registers set, in order. -/
def withRegs (values : List (Digit × Byte)) (s : State) : State :=
  values.foldl (fun t p => t.setReg p.1 p.2) s

/-- A state with bytes stored. -/
def withBytes (a : Nat) (bytes : List Byte) (s : State) : State := s.setMem (s.mem.writeBytes a bytes)

/-- A state with the Modern variant. -/
def modern (s : State) : State := { s with variant := .modern }

/-- A state with `n` entries on the stack, all of them the same. -/
def withStack (n : Fin 17) (entry : Word) (s : State) : State :=
  { s with stack := Vector.replicate 16 entry, stackUsed := n }

/-- A state with its PC set. -/
def withPc (a : Word) (s : State) : State := { s with pc := a }

/-- A state with the timers set. -/
def withTimers (dt st : Byte) (s : State) : State := { s with dt := dt, st := st }

/-- A state with one row of the display set. -/
def withRow (r : Fin 32) (row : BitVec 64) (s : State) : State := s.setDisp (s.disp.set r.val row)

/-- A state with a fault latched. -/
def withFault (code : FaultLatch) (s : State) : State := { s with fault := code }

/-- A state whose next step samples the given keys, key press and random byte. -/
def withInputs (keys : BitVec 16) (lastKey : Option Digit) (rnd : Byte) (s : State) : State :=
  s.setInputs { keys := keys, lastKey := lastKey, rnd := rnd }

/-- An outcome is a next state with a property. -/
def nextHas (r : Result) (p : State → Bool) : Bool :=
  match r with
  | .next t => p t
  | .fault _ => false
  | .refused _ => false

/-- The word `w` at PC, one `STEP`, and a property of the state after it. -/
def stepHas (w : Nat) (s : State) (p : State → Bool) : Bool := nextHas (stepEvent (s.withFetchWord 16 w)) p

/-! ### Ill-formed terms: one for each check of WellFormed -/

theorem test_sys_e0_ill_formed : (Instr.sys 0x3E0#12).wellFormed = false := by decide

theorem test_sys_ee_ill_formed : (Instr.sys 0x0EE#12).wellFormed = false := by decide

theorem test_nop8_ill_formed :
    ∀ n ∈ [0x0#4, 0x1#4, 0x2#4, 0x3#4, 0x4#4, 0x5#4, 0x6#4, 0x7#4, 0xE#4],
      (Instr.nop8 0x1#4 0x2#4 n).wellFormed = false := by decide

theorem test_nope_ill_formed :
    ∀ nn ∈ [0x9E#8, 0xA1#8], (Instr.nope 0x1#4 nn).wellFormed = false := by decide

theorem test_nopf_ill_formed :
    ∀ nn ∈ [0x07#8, 0x0A#8, 0x15#8, 0x18#8, 0x1E#8, 0x29#8, 0x33#8, 0x55#8, 0x65#8],
      (Instr.nopf 0x1#4 nn).wellFormed = false := by decide

/-! ### Decoding and encoding: a word of every row, written out digit by digit from 30_encoding R64 -/

theorem test_decode_cls : decodeTableWord 16 0x00E0 = some (.cls 0x0#4) ∧
    encodeWord (.cls 0x0#4) = 0x00E0#16 := by decide

theorem test_decode_ret : decodeTableWord 16 0x00EE = some (.ret 0x0#4) ∧
    encodeWord (.ret 0x0#4) = 0x00EE#16 := by decide

theorem test_decode_sys : decodeTableWord 16 0x0123 = some (.sys 0x123#12) ∧
    encodeWord (.sys 0x123#12) = 0x0123#16 := by decide

theorem test_decode_jp : decodeTableWord 16 0x1ABC = some (.jp 0xABC#12) ∧
    encodeWord (.jp 0xABC#12) = 0x1ABC#16 := by decide

theorem test_decode_call : decodeTableWord 16 0x2DEF = some (.call 0xDEF#12) ∧
    encodeWord (.call 0xDEF#12) = 0x2DEF#16 := by decide

theorem test_decode_se : decodeTableWord 16 0x332A = some (.se 0x3#4 0x2A#8) ∧
    encodeWord (.se 0x3#4 0x2A#8) = 0x332A#16 := by decide

theorem test_decode_sne : decodeTableWord 16 0x45C7 = some (.sne 0x5#4 0xC7#8) ∧
    encodeWord (.sne 0x5#4 0xC7#8) = 0x45C7#16 := by decide

theorem test_decode_ser : decodeTableWord 16 0x512F = some (.ser 0x1#4 0x2#4 0xF#4) ∧
    encodeWord (.ser 0x1#4 0x2#4 0xF#4) = 0x512F#16 := by decide

theorem test_decode_ld : decodeTableWord 16 0x6A42 = some (.ld 0xA#4 0x42#8) ∧
    encodeWord (.ld 0xA#4 0x42#8) = 0x6A42#16 := by decide

theorem test_decode_add : decodeTableWord 16 0x7B1D = some (.add 0xB#4 0x1D#8) ∧
    encodeWord (.add 0xB#4 0x1D#8) = 0x7B1D#16 := by decide

theorem test_decode_mov : decodeTableWord 16 0x8120 = some (.mov 0x1#4 0x2#4) ∧
    encodeWord (.mov 0x1#4 0x2#4) = 0x8120#16 := by decide

theorem test_decode_or : decodeTableWord 16 0x8341 = some (.or 0x3#4 0x4#4) ∧
    encodeWord (.or 0x3#4 0x4#4) = 0x8341#16 := by decide

theorem test_decode_and : decodeTableWord 16 0x8562 = some (.and 0x5#4 0x6#4) ∧
    encodeWord (.and 0x5#4 0x6#4) = 0x8562#16 := by decide

theorem test_decode_xor : decodeTableWord 16 0x8783 = some (.xor 0x7#4 0x8#4) ∧
    encodeWord (.xor 0x7#4 0x8#4) = 0x8783#16 := by decide

theorem test_decode_addr : decodeTableWord 16 0x89A4 = some (.addr 0x9#4 0xA#4) ∧
    encodeWord (.addr 0x9#4 0xA#4) = 0x89A4#16 := by decide

theorem test_decode_sub : decodeTableWord 16 0x8BC5 = some (.sub 0xB#4 0xC#4) ∧
    encodeWord (.sub 0xB#4 0xC#4) = 0x8BC5#16 := by decide

theorem test_decode_shr : decodeTableWord 16 0x8DE6 = some (.shr 0xD#4 0xE#4) ∧
    encodeWord (.shr 0xD#4 0xE#4) = 0x8DE6#16 := by decide

theorem test_decode_subn : decodeTableWord 16 0x8F17 = some (.subn 0xF#4 0x1#4) ∧
    encodeWord (.subn 0xF#4 0x1#4) = 0x8F17#16 := by decide

theorem test_decode_shl : decodeTableWord 16 0x823E = some (.shl 0x2#4 0x3#4) ∧
    encodeWord (.shl 0x2#4 0x3#4) = 0x823E#16 := by decide

theorem test_decode_nop8 : decodeTableWord 16 0x8AB9 = some (.nop8 0xA#4 0xB#4 0x9#4) ∧
    encodeWord (.nop8 0xA#4 0xB#4 0x9#4) = 0x8AB9#16 := by decide

theorem test_decode_sner : decodeTableWord 16 0x9341 = some (.sner 0x3#4 0x4#4 0x1#4) ∧
    encodeWord (.sner 0x3#4 0x4#4 0x1#4) = 0x9341#16 := by decide

theorem test_decode_ldi : decodeTableWord 16 0xA2F0 = some (.ldi 0x2F0#12) ∧
    encodeWord (.ldi 0x2F0#12) = 0xA2F0#16 := by decide

theorem test_decode_jpv : decodeTableWord 16 0xB210 = some (.jpv 0x210#12) ∧
    encodeWord (.jpv 0x210#12) = 0xB210#16 := by decide

theorem test_decode_rnd : decodeTableWord 16 0xC30F = some (.rnd 0x3#4 0x0F#8) ∧
    encodeWord (.rnd 0x3#4 0x0F#8) = 0xC30F#16 := by decide

theorem test_decode_drw : decodeTableWord 16 0xD125 = some (.drw 0x1#4 0x2#4 0x5#4) ∧
    encodeWord (.drw 0x1#4 0x2#4 0x5#4) = 0xD125#16 := by decide

theorem test_decode_skp : decodeTableWord 16 0xE29E = some (.skp 0x2#4) ∧
    encodeWord (.skp 0x2#4) = 0xE29E#16 := by decide

theorem test_decode_sknp : decodeTableWord 16 0xE4A1 = some (.sknp 0x4#4) ∧
    encodeWord (.sknp 0x4#4) = 0xE4A1#16 := by decide

theorem test_decode_nope : decodeTableWord 16 0xE19F = some (.nope 0x1#4 0x9F#8) ∧
    encodeWord (.nope 0x1#4 0x9F#8) = 0xE19F#16 := by decide

theorem test_decode_ldvdt : decodeTableWord 16 0xF307 = some (.ldvdt 0x3#4) ∧
    encodeWord (.ldvdt 0x3#4) = 0xF307#16 := by decide

theorem test_decode_ldk : decodeTableWord 16 0xF40A = some (.ldk 0x4#4) ∧
    encodeWord (.ldk 0x4#4) = 0xF40A#16 := by decide

theorem test_decode_lddt : decodeTableWord 16 0xF515 = some (.lddt 0x5#4) ∧
    encodeWord (.lddt 0x5#4) = 0xF515#16 := by decide

theorem test_decode_ldst : decodeTableWord 16 0xF618 = some (.ldst 0x6#4) ∧
    encodeWord (.ldst 0x6#4) = 0xF618#16 := by decide

theorem test_decode_addi : decodeTableWord 16 0xF71E = some (.addi 0x7#4) ∧
    encodeWord (.addi 0x7#4) = 0xF71E#16 := by decide

theorem test_decode_ldf : decodeTableWord 16 0xF829 = some (.ldf 0x8#4) ∧
    encodeWord (.ldf 0x8#4) = 0xF829#16 := by decide

theorem test_decode_bcd : decodeTableWord 16 0xF933 = some (.bcd 0x9#4) ∧
    encodeWord (.bcd 0x9#4) = 0xF933#16 := by decide

theorem test_decode_stm : decodeTableWord 16 0xFA55 = some (.stm 0xA#4) ∧
    encodeWord (.stm 0xA#4) = 0xFA55#16 := by decide

theorem test_decode_ldm : decodeTableWord 16 0xFB65 = some (.ldm 0xB#4) ∧
    encodeWord (.ldm 0xB#4) = 0xFB65#16 := by decide

theorem test_decode_nopf : decodeTableWord 16 0xF375 = some (.nopf 0x3#4 0x75#8) ∧
    encodeWord (.nopf 0x3#4 0x75#8) = 0xF375#16 := by decide

/-- 30_encoding R66: bits 11:8 of class 0 and bits 3:0 of classes 5 and 9 do not select. -/
theorem test_decode_ignored_digits :
    decodeTableWord 16 0x0AE0 = some (.cls 0xA#4) ∧ decodeTableWord 16 0x07EE = some (.ret 0x7#4) ∧
      decodeTableWord 16 0x5120 = some (.ser 0x1#4 0x2#4 0x0#4) ∧
      decodeTableWord 16 0x9115 = some (.sner 0x1#4 0x1#4 0x5#4) := by decide

/-- The words of 95_test_vectors 2.8 are no-ops. -/
theorem test_decode_noop_words :
    (∀ w ∈ [0x0000, 0x0123, 0x00E1, 0x00ED, 0x00EF, 0x00FF, 0x0FFF],
      (decodeTableWord 16 w).map Instr.mnemonic = some "SYS") ∧
    (∀ w ∈ [0x8008, 0x812F, 0x8AB9, 0x8FFA, 0x8FFD],
      (decodeTableWord 16 w).map Instr.mnemonic = some "NOP8") ∧
    (∀ w ∈ [0xE000, 0xE19F, 0xE1A0, 0xE09D, 0xEFFF],
      (decodeTableWord 16 w).map Instr.mnemonic = some "NOPE") ∧
    (∀ w ∈ [0xF000, 0xF108, 0xF1FF, 0xF130, 0xF175, 0xF185, 0xF106, 0xF10B],
      (decodeTableWord 16 w).map Instr.mnemonic = some "NOPF") := by decide

/-- Fewer than two bytes are rejected by name; two bytes leave the rest; the high byte comes first (20_memory R41). -/
theorem test_decode_bytes :
    decode [] = .error .truncated ∧ decode [0x12#8] = .error .truncated ∧
      decode [0x6A#8, 0x42#8, 0x99#8] = .ok (.ld 0xA#4 0x42#8, [0x99#8]) := by decide

/-- No word has two of the matched patterns: two rows differ on a bit both their masks hold. -/
theorem test_matched_rows_disjoint :
    matchedRows.Pairwise fun r q => r.pattern &&& q.mask &&& r.mask ≠ q.pattern &&& r.mask &&& q.mask := by decide

/-- 30_encoding R64 has 34 matched rows and 4 fallback rows. -/
theorem test_row_counts : matchedRows.length = 34 ∧ fallbackRows.length = 4 := by decide

/-! ### One step of each instruction -/

/-- CF1, CF4: any target, odd ones too. -/
theorem test_jp : stepHas 0x1ABC (State.reset)
    (fun t => t.pc == 0x0ABC#16 && t.redraw == .noChange) = true := by decide

/-- CF5. -/
theorem test_call : stepHas 0x2300 (State.reset)
    (fun t => t.pc == 0x0300#16 && t.sp == 0 && t.stack[0] == 0x0202#16) = true := by decide

/-- CF7: the push is skipped, the jump taken. -/
theorem test_call_full : stepHas 0x2300 (withStack 16 0x0ABC#16 State.reset)
    (fun t => t.pc == 0x0300#16 && t.sp == 15 && t.stack[15] == 0x0ABC#16) = true := by decide

/-- CF8: the entry is not cleared. -/
theorem test_ret : stepHas 0x00EE (withPc 0x0300#16 (withStack 1 0x0202#16 State.reset))
    (fun t => t.pc == 0x0202#16 && t.sp == -1 && t.stack[0] == 0x0202#16) = true := by decide

/-- CF10. -/
theorem test_ret_empty : stepHas 0x07EE (withPc 0x0300#16 State.reset)
    (fun t => t.pc == 0x0302#16 && t.sp == -1) = true := by decide

/-- CF11, Legacy. -/
theorem test_jpv_legacy : stepHas 0xB210 (withRegs [(0x0#4, 0x04#8), (0x2#4, 0x10#8)] State.reset)
    (fun t => t.pc == 0x0214#16) = true := by decide

/-- CF11, Modern. -/
theorem test_jpv_modern : stepHas 0xB210 (modern (withRegs [(0x0#4, 0x04#8), (0x2#4, 0x10#8)] State.reset))
    (fun t => t.pc == 0x0220#16) = true := by decide

/-- CF12: the sum is not cut to 12 bits. -/
theorem test_jpv_not_truncated : stepHas 0xBFFF (withRegs [(0x0#4, 0xFF#8), (0xF#4, 0xFF#8)] State.reset)
    (fun t => t.pc == 0x10FE#16) = true := by decide

/-- SK1. -/
theorem test_se_taken : stepHas 0x332A (withRegs [(0x3#4, 0x2A#8)] State.reset)
    (fun t => t.pc == 0x0204#16) = true := by decide

/-- SK2. -/
theorem test_se_not_taken : stepHas 0x332A (withRegs [(0x3#4, 0x2B#8)] State.reset)
    (fun t => t.pc == 0x0202#16) = true := by decide

/-- SK3. -/
theorem test_sne_not_taken : stepHas 0x432A (withRegs [(0x3#4, 0x2A#8)] State.reset)
    (fun t => t.pc == 0x0202#16) = true := by decide

/-- SK4. -/
theorem test_sne_taken : stepHas 0x432A (State.reset)
    (fun t => t.pc == 0x0204#16) = true := by decide

/-- SK6: the last digit is ignored. -/
theorem test_ser_taken : stepHas 0x512F (withRegs [(0x1#4, 0x07#8), (0x2#4, 0x07#8)] State.reset)
    (fun t => t.pc == 0x0204#16) = true := by decide

/-- SK7. -/
theorem test_ser_not_taken : stepHas 0x5120 (withRegs [(0x1#4, 0x07#8), (0x2#4, 0x08#8)] State.reset)
    (fun t => t.pc == 0x0202#16) = true := by decide

/-- SK9. -/
theorem test_sner_taken : stepHas 0x9120 (withRegs [(0x1#4, 0x07#8), (0x2#4, 0x08#8)] State.reset)
    (fun t => t.pc == 0x0204#16) = true := by decide

/-- SK11. -/
theorem test_sner_not_taken : stepHas 0x9115 (withRegs [(0x1#4, 0x07#8)] State.reset)
    (fun t => t.pc == 0x0202#16) = true := by decide

/-- IM1. -/
theorem test_ld : stepHas 0x6A42 (State.reset)
    (fun t => t.reg 0xA#4 == 0x42#8 && t.pc == 0x0202#16 && t.redraw == .noChange) = true := by decide

/-- IM2. -/
theorem test_ld_vf : stepHas 0x6F00 (withRegs [(0xF#4, 0x07#8)] State.reset)
    (fun t => t.reg 0xF#4 == 0x00#8) = true := by decide

/-- IM3, with the flag of the start kept. -/
theorem test_add_wraps : stepHas 0x7120 (withRegs [(0x1#4, 0xF0#8), (0xF#4, 0x07#8)] State.reset)
    (fun t => t.reg 0x1#4 == 0x10#8 && t.reg 0xF#4 == 0x07#8) = true := by decide

/-- IM6: the sum, no flag. -/
theorem test_add_vf : stepHas 0x7F01 (withRegs [(0xF#4, 0xFF#8)] State.reset)
    (fun t => t.reg 0xF#4 == 0x00#8) = true := by decide

/-- IM7. -/
theorem test_rnd : stepHas 0xC30F (withInputs 0x0000#16 none 0xB7#8 (withRegs [(0x3#4, 0xAA#8)] State.reset))
    (fun t => t.reg 0x3#4 == 0x07#8 && t.pc == 0x0202#16) = true := by decide

/-- AL1: VF unchanged. -/
theorem test_mov : stepHas 0x8120 (withRegs [(0x1#4, 0x01#8), (0x2#4, 0x37#8), (0xF#4, 0x01#8)] State.reset)
    (fun t => t.reg 0x1#4 == 0x37#8 && t.reg 0xF#4 == 0x01#8) = true := by decide

/-- AL2, Legacy. -/
theorem test_or_legacy : stepHas 0x8121 (withRegs [(0x1#4, 0x0C#8), (0x2#4, 0x0A#8), (0xF#4, 0x01#8)] State.reset)
    (fun t => t.reg 0x1#4 == 0x0E#8 && t.reg 0xF#4 == 0x00#8) = true := by decide

/-- AL5, Modern: VF is an ordinary destination. -/
theorem test_or_modern_vf : stepHas 0x8F21 (modern (withRegs [(0xF#4, 0x0C#8), (0x2#4, 0x0A#8)] State.reset))
    (fun t => t.reg 0xF#4 == 0x0E#8) = true := by decide

/-- AL3, Legacy. -/
theorem test_and_legacy : stepHas 0x8122 (withRegs [(0x1#4, 0x0C#8), (0x2#4, 0x0A#8), (0xF#4, 0x01#8)] State.reset)
    (fun t => t.reg 0x1#4 == 0x08#8 && t.reg 0xF#4 == 0x00#8) = true := by decide

/-- AL3, Modern. -/
theorem test_and_modern : stepHas 0x8122 (modern (withRegs [(0x1#4, 0x0C#8), (0x2#4, 0x0A#8), (0xF#4, 0x01#8)] State.reset))
    (fun t => t.reg 0x1#4 == 0x08#8 && t.reg 0xF#4 == 0x01#8) = true := by decide

/-- AL4, Legacy. -/
theorem test_xor_legacy : stepHas 0x8123 (withRegs [(0x1#4, 0x0C#8), (0x2#4, 0x0A#8), (0xF#4, 0x01#8)] State.reset)
    (fun t => t.reg 0x1#4 == 0x06#8 && t.reg 0xF#4 == 0x00#8) = true := by decide

/-- AL4, Modern. -/
theorem test_xor_modern : stepHas 0x8123 (modern (withRegs [(0x1#4, 0x0C#8), (0x2#4, 0x0A#8), (0xF#4, 0x01#8)] State.reset))
    (fun t => t.reg 0x1#4 == 0x06#8 && t.reg 0xF#4 == 0x01#8) = true := by decide

/-- AL8. -/
theorem test_addr_carry : stepHas 0x8124 (withRegs [(0x1#4, 0xFF#8), (0x2#4, 0x01#8)] State.reset)
    (fun t => t.reg 0x1#4 == 0x00#8 && t.reg 0xF#4 == 0x01#8) = true := by decide

/-- AL13. -/
theorem test_addr_reads_old_vf : stepHas 0x81F4 (withRegs [(0x1#4, 0x10#8), (0xF#4, 0x05#8)] State.reset)
    (fun t => t.reg 0x1#4 == 0x15#8 && t.reg 0xF#4 == 0x00#8) = true := by decide

/-- AL14. -/
theorem test_sub_borrow : stepHas 0x8125 (withRegs [(0x1#4, 0x10#8), (0x2#4, 0x20#8), (0xF#4, 0x01#8)] State.reset)
    (fun t => t.reg 0x1#4 == 0xF0#8 && t.reg 0xF#4 == 0x00#8) = true := by decide

/-- AL15. -/
theorem test_sub_equal : stepHas 0x8125 (withRegs [(0x1#4, 0x20#8), (0x2#4, 0x20#8)] State.reset)
    (fun t => t.reg 0x1#4 == 0x00#8 && t.reg 0xF#4 == 0x01#8) = true := by decide

/-- AL19, Legacy. -/
theorem test_shr_legacy : stepHas 0x8126 (withRegs [(0x1#4, 0x01#8), (0x2#4, 0x05#8)] State.reset)
    (fun t => t.reg 0x1#4 == 0x02#8 && t.reg 0x2#4 == 0x05#8 && t.reg 0xF#4 == 0x01#8) = true := by decide

/-- AL20, Modern. -/
theorem test_shr_modern : stepHas 0x8126 (modern (withRegs [(0x1#4, 0xFF#8), (0x2#4, 0x80#8)] State.reset))
    (fun t => t.reg 0x1#4 == 0x7F#8 && t.reg 0x2#4 == 0x80#8 && t.reg 0xF#4 == 0x01#8) = true := by decide

/-- AL23. -/
theorem test_subn_borrow : stepHas 0x8127 (withRegs [(0x1#4, 0x20#8), (0x2#4, 0x10#8), (0xF#4, 0x01#8)] State.reset)
    (fun t => t.reg 0x1#4 == 0xF0#8 && t.reg 0xF#4 == 0x00#8) = true := by decide

/-- AL25. -/
theorem test_subn_equal : stepHas 0x8127 (withRegs [(0x1#4, 0x20#8), (0x2#4, 0x20#8)] State.reset)
    (fun t => t.reg 0x1#4 == 0x00#8 && t.reg 0xF#4 == 0x01#8) = true := by decide

/-- AL26, Legacy. -/
theorem test_shl_legacy : stepHas 0x812E (withRegs [(0x1#4, 0x81#8), (0x2#4, 0x40#8), (0xF#4, 0x01#8)] State.reset)
    (fun t => t.reg 0x1#4 == 0x80#8 && t.reg 0xF#4 == 0x00#8) = true := by decide

/-- AL26, Modern. -/
theorem test_shl_modern : stepHas 0x812E (modern (withRegs [(0x1#4, 0x81#8), (0x2#4, 0x40#8)] State.reset))
    (fun t => t.reg 0x1#4 == 0x02#8 && t.reg 0xF#4 == 0x01#8) = true := by decide

/-- 95_test_vectors 2.8. -/
theorem test_sys : stepHas 0x00EF ((withTimers 0x04#8 0x05#8 (withRegs [(0x1#4, 0x5A#8), (0xF#4, 0xA5#8)] State.reset)).setIndex 0x0123#16)
    (fun t => t.reg 0x1#4 == 0x5A#8 && t.reg 0xF#4 == 0xA5#8 && t.index == 0x0123#16 && t.dt == 0x04#8 && t.st == 0x05#8 && t.pc == 0x0202#16 && t.redraw == .noChange) = true := by decide

/-- 95_test_vectors 2.8. -/
theorem test_nop8 : stepHas 0x812F ((withTimers 0x04#8 0x05#8 (withRegs [(0x1#4, 0x5A#8), (0xF#4, 0xA5#8)] State.reset)).setIndex 0x0123#16)
    (fun t => t.reg 0x1#4 == 0x5A#8 && t.reg 0xF#4 == 0xA5#8 && t.index == 0x0123#16 && t.dt == 0x04#8 && t.st == 0x05#8 && t.pc == 0x0202#16 && t.redraw == .noChange) = true := by decide

/-- 95_test_vectors 2.8. -/
theorem test_nope : stepHas 0xE1A0 ((withTimers 0x04#8 0x05#8 (withRegs [(0x1#4, 0x5A#8), (0xF#4, 0xA5#8)] State.reset)).setIndex 0x0123#16)
    (fun t => t.reg 0x1#4 == 0x5A#8 && t.reg 0xF#4 == 0xA5#8 && t.index == 0x0123#16 && t.dt == 0x04#8 && t.st == 0x05#8 && t.pc == 0x0202#16 && t.redraw == .noChange) = true := by decide

/-- 95_test_vectors 2.8. -/
theorem test_nopf : stepHas 0xF185 ((withTimers 0x04#8 0x05#8 (withRegs [(0x1#4, 0x5A#8), (0xF#4, 0xA5#8)] State.reset)).setIndex 0x0123#16)
    (fun t => t.reg 0x1#4 == 0x5A#8 && t.reg 0xF#4 == 0xA5#8 && t.index == 0x0123#16 && t.dt == 0x04#8 && t.st == 0x05#8 && t.pc == 0x0202#16 && t.redraw == .noChange) = true := by decide

/-- IX1. -/
theorem test_ldi : stepHas 0xA2F0 (State.reset)
    (fun t => t.index == 0x02F0#16 && t.pc == 0x0202#16) = true := by decide

/-- IX3: legal in the register. -/
theorem test_addi : stepHas 0xF21E ((withRegs [(0x2#4, 0x01#8)] State.reset).setIndex 0x0FFF#16)
    (fun t => t.index == 0x1000#16) = true := by decide

/-- IX4: modulo 65536, VF unchanged. -/
theorem test_addi_wraps : stepHas 0xF21E ((withRegs [(0x2#4, 0x01#8), (0xF#4, 0x07#8)] State.reset).setIndex 0xFFFF#16)
    (fun t => t.index == 0x0000#16 && t.reg 0xF#4 == 0x07#8) = true := by decide

/-- IX6. -/
theorem test_ldf : stepHas 0xF429 (withRegs [(0x4#4, 0x0A#8)] State.reset)
    (fun t => t.index == 0x0082#16) = true := by decide

/-- IX9. -/
theorem test_ldf_no_mask : stepHas 0xF429 (withRegs [(0x4#4, 0xFF#8)] State.reset)
    (fun t => t.index == 0x054B#16) = true := by decide

/-- IX15: the last byte at 0xFFF. -/
theorem test_bcd : stepHas 0xF533 ((withRegs [(0x5#4, 0x7B#8)] State.reset).setIndex 0x0FFD#16)
    (fun t => t.mem.read 0xFFD == 0x01#8 && t.mem.read 0xFFE == 0x02#8 && t.mem.read 0xFFF == 0x03#8 && t.fault == .noFault && t.pc == 0x0202#16) = true := by decide

/-- IX16. -/
theorem test_bcd_faults : stepHas 0xF533 ((withRegs [(0x5#4, 0x7B#8)] State.reset).setIndex 0x0FFE#16)
    (fun t => t.fault == .memRange && t.pc == 0x0200#16 && t.mem.read 0xFFE == 0x00#8 && t.mem.read 0xFFF == 0x00#8) = true := by decide

/-- IX18, Legacy. -/
theorem test_stm_legacy : stepHas 0xF255 ((withRegs [(0x0#4, 0x11#8), (0x1#4, 0x22#8), (0x2#4, 0x33#8), (0x3#4, 0x44#8)] State.reset).setIndex 0x0400#16)
    (fun t => t.mem.read 0x400 == 0x11#8 && t.mem.read 0x401 == 0x22#8 && t.mem.read 0x402 == 0x33#8 && t.mem.read 0x403 == 0x00#8 && t.index == 0x0403#16) = true := by decide

/-- IX22 with x = 1 at 0xFFF: nothing written. -/
theorem test_stm_faults : stepHas 0xF155 ((withRegs [(0x0#4, 0x11#8), (0x1#4, 0x22#8), (0x2#4, 0x33#8), (0x3#4, 0x44#8)] State.reset).setIndex 0x0FFF#16)
    (fun t => t.fault == .memRange && t.mem.read 0xFFF == 0x00#8 && t.index == 0x0FFF#16 && t.pc == 0x0200#16) = true := by decide

/-- IX19, Modern. -/
theorem test_ldm_modern : stepHas 0xF265 (modern ((withBytes 0x400 [0x11#8, 0x22#8, 0x33#8, 0x99#8] (withRegs [(0x3#4, 0x44#8)] State.reset)).setIndex 0x0400#16))
    (fun t => t.reg 0x0#4 == 0x11#8 && t.reg 0x1#4 == 0x22#8 && t.reg 0x2#4 == 0x33#8 && t.reg 0x3#4 == 0x44#8 && t.index == 0x0400#16) = true := by decide

/-- IX23, Legacy: up to the last byte of memory. -/
theorem test_ldm_legacy_end : stepHas 0xF065 ((withBytes 0xFFF [0x77#8] State.reset).setIndex 0x0FFF#16)
    (fun t => t.reg 0x0#4 == 0x77#8 && t.index == 0x1000#16) = true := by decide

/-- DP1. -/
theorem test_cls : stepHas 0x00E0 (withRow 31 1#64 (withRow 0 0x8000000000000000#64 State.reset))
    (fun t => t.pixel 0 0 == false && t.pixel 31 63 == false && t.redraw == .redrawNeeded && t.pc == 0x0202#16) = true := by decide

/-- DP6: bit 7 is column 0, and a collision. -/
theorem test_drw_bit_order : stepHas 0xD011 ((withBytes 0x300 [0xF0#8] (withRow 0 0x1800000000000000#64 State.reset)).setIndex 0x0300#16)
    (fun t => t.disp[0] == 0xE800000000000000#64 && t.reg 0xF#4 == 0x01#8 && t.redraw == .redrawNeeded) = true := by decide

/-- DP8: four columns are dropped, none wraps. -/
theorem test_drw_clips : stepHas 0xD011 ((withBytes 0x300 [0xFF#8] (withRegs [(0x0#4, 0x3C#8), (0x1#4, 0x05#8)] State.reset)).setIndex 0x0300#16)
    (fun t => t.disp[5] == 0x000000000000000F#64 && t.disp[0] == 0#64 && t.reg 0xF#4 == 0x00#8) = true := by decide

/-- KT1. -/
theorem test_skp_held : stepHas 0xE29E (withInputs 0x0080#16 none 0x00#8 (withRegs [(0x2#4, 0x07#8)] State.reset))
    (fun t => t.pc == 0x0204#16) = true := by decide

/-- KT7: no masking of the key number. -/
theorem test_skp_above_15 : stepHas 0xE29E (withInputs 0x0080#16 none 0x00#8 (withRegs [(0x2#4, 0x17#8)] State.reset))
    (fun t => t.pc == 0x0202#16) = true := by decide

/-- KT5. -/
theorem test_sknp_held : stepHas 0xE2A1 (withInputs 0x0080#16 none 0x00#8 (withRegs [(0x2#4, 0x07#8)] State.reset))
    (fun t => t.pc == 0x0202#16) = true := by decide

/-- KT8. -/
theorem test_sknp_above_15 : stepHas 0xE2A1 (withInputs 0x0080#16 none 0x00#8 (withRegs [(0x2#4, 0x17#8)] State.reset))
    (fun t => t.pc == 0x0204#16) = true := by decide

/-- KT15. -/
theorem test_ldvdt : stepHas 0xF307 (withTimers 0x2C#8 0x00#8 (withRegs [(0x3#4, 0x01#8)] State.reset))
    (fun t => t.reg 0x3#4 == 0x2C#8 && t.dt == 0x2C#8) = true := by decide

/-- KT11: a held key is no press. -/
theorem test_ldk_waits : stepHas 0xF30A (withInputs 0x0008#16 none 0x00#8 (withRegs [(0x3#4, 0xEE#8)] State.reset))
    (fun t => t.reg 0x3#4 == 0xEE#8 && t.pc == 0x0200#16) = true := by decide

/-- KT12. -/
theorem test_ldk_press : stepHas 0xF30A (withInputs 0x0000#16 (some 0xB#4) 0x00#8 (withRegs [(0x3#4, 0xEE#8)] State.reset))
    (fun t => t.reg 0x3#4 == 0x0B#8 && t.pc == 0x0202#16) = true := by decide

/-- KT16. -/
theorem test_lddt : stepHas 0xF315 (withRegs [(0x3#4, 0x3C#8)] State.reset)
    (fun t => t.dt == 0x3C#8 && t.st == 0x00#8) = true := by decide

/-- KT18. -/
theorem test_ldst : stepHas 0xF318 (withRegs [(0x3#4, 0x05#8)] State.reset)
    (fun t => t.st == 0x05#8 && t.dt == 0x00#8) = true := by decide

/-! ### Faults, events and reset -/

/-- FT1: a step at 0xFFF. -/
theorem test_fetch_fault :
    nextHas (stepEvent (withPc 0x0FFF#16 State.reset))
      (fun t => t.fault == .fetchRange && t.pc == 0x0FFF#16) = true := by decide

/-- FT3: 0xFFE is the last legal PC. -/
theorem test_fetch_last :
    stepHas 0x1200 (withPc 0x0FFE#16 State.reset) (fun t => t.fault == .noFault && t.pc == 0x0200#16) = true := by decide

/-- FT5: a stopped machine runs nothing. -/
theorem test_stopped :
    nextHas (stepEvent (withFault .memRange (State.reset.withFetchWord 16 0x6A42)))
      (fun t => t.reg 0xA#4 == 0x00#8 && t.pc == 0x0200#16 && t.fault == .memRange) = true := by decide

/-- DP14: a `DRW` whose second row is above 0xFFF changes nothing but the latch. -/
theorem test_drw_faults :
    stepHas 0xD012 ((withRegs [(0xF#4, 0x09#8)] State.reset).setIndex 0x0FFF#16)
      (fun t => t.fault == .memRange && t.pc == 0x0200#16 && t.reg 0xF#4 == 0x09#8 &&
        t.redraw == .noChange) = true := by decide

/-- DP12: `DRW` with n = 0 reads nothing, so it does not fault. -/
theorem test_drw_no_rows :
    stepHas 0xD010 ((withRegs [(0xF#4, 0x09#8)] State.reset).setIndex 0xFFFF#16)
      (fun t => t.fault == .noFault && t.reg 0xF#4 == 0x00#8 && t.redraw == .redrawNeeded) = true := by decide

/-- KT19, KT22. -/
theorem test_tick :
    ((withTimers 0x00#8 0x00#8 State.reset).tick.dt = 0x00#8 ∧
      (withTimers 0xFF#8 0x02#8 State.reset).tick.dt = 0xFE#8 ∧
      (withTimers 0xFF#8 0x02#8 State.reset).tick.st = 0x01#8) := by decide

/-- KT23: ticks go on in the faulted state. -/
theorem test_tick_faulted :
    (withTimers 0x03#8 0x00#8 (withFault .memRange State.reset)).tick.dt = 0x02#8 ∧
      (withTimers 0x03#8 0x00#8 (withFault .memRange State.reset)).tick.fault = .memRange := by decide

/-- 70_reset R203, R204: the image from 0x200; one byte too many is refused; so is a second load. -/
theorem test_load :
    nextHas (loadEvent [0x12#8, 0x08#8] State.reset)
      (fun t => t.mem.read 0x200 == 0x12#8 && t.mem.read 0x201 == 0x08#8 && t.loadable == false) = true ∧
    loadEvent [0x12#8] State.reset.closeLoad = .refused .loadNotAdmitted := ⟨by decide, rfl⟩

/-- 10_state R29, R27: the glyph of 0xA at 0x082, and 0 beside the table. -/
theorem test_reset_memory :
    (State.reset.mem.readBytes 0x082 5 = [0xF0#8, 0x90#8, 0xF0#8, 0x90#8, 0x90#8]) ∧
      State.reset.mem.read 0x04F = 0x00#8 ∧ State.reset.mem.read 0x0A0 = 0x00#8 := by decide

/-- The default glyph table has the 80 bytes of 10_state R27. -/
theorem test_glyph_rom_size : defaultGlyphRom.length = 80 := by decide

/-- FT6: the RESET event with the default glyph table is the reset state, from a faulted one too, under one input snapshot
(the inputs are the host's, and RESET leaves them alone). -/
theorem test_reset_event :
    (withFault .memRange (withInputs 0x0000#16 none 0x00#8 State.reset)).resetEvent .legacy
      ⟨defaultGlyphRom.toArray, by decide⟩ = withInputs 0x0000#16 none 0x00#8 State.reset := by decide

/-- R102: the random byte of the first step from the reset state is the free value's, not a number of the model's. -/
theorem test_reset_rnd_is_free :
    exec (.rnd 0x3#4 0xFF#8) State.reset =
      .next (State.reset.setReg 0x3#4 ((Config.freeTurn 0).inputs.rnd &&& 0xFF#8)).advance := rfl

/-- From the reset state a first `LDK` goes on whatever the free snapshot reports. -/
theorem test_reset_ldk_goes_on : ∃ t, step (State.reset.withFetchWord 16 0xF30A) = .next t := ⟨_, rfl⟩

/-! ### Witnesses: the hypotheses of the statements are met, clause by clause, at the edges of their ranges -/

/-- `CallPushesAndJumps`, `CallThenReturnComesBack`: below a full stack at its two ends, and a full one. -/
theorem test_witness_call :
    State.reset.sp < 15 ∧ (withStack 15 0x0202#16 State.reset).sp = 14 ∧
      (withStack 15 0x0202#16 State.reset).sp < 15 ∧ (withStack 16 0x0202#16 State.reset).sp = 15 := by decide

/-- `ReturnPopsOrFallsThrough`: an entry at the bottom, one at the top, and none. -/
theorem test_witness_ret :
    (((0 : Fin 16).val : Int) = (withStack 1 0x0202#16 State.reset).sp) ∧
      (((15 : Fin 16).val : Int) = (withStack 16 0x0202#16 State.reset).sp) ∧ State.reset.sp = -1 := by decide

/-- `JumpWithOffsetAddsRegister`, `LogicOpsAndVf`, the block transfers: both variants. -/
theorem test_witness_variants :
    State.reset.variant = .legacy ∧ (modern State.reset).variant = .modern ∧ (0x1#4 : Digit) ≠ vf := by decide

/-- `RegisterSkips`: each condition holds in one state and fails in another. -/
theorem test_witness_skips :
    (withRegs [(0x1#4, 0x07#8)] State.reset).reg 0x1#4 = 0x07#8 ∧
      (withRegs [(0x1#4, 0x07#8)] State.reset).reg 0x1#4 ≠ 0x08#8 ∧
      (withRegs [(0x1#4, 0x07#8)] State.reset).reg 0x1#4 ≠ State.reset.reg 0x2#4 := by decide

/-- `AddRegistersSetsCarry`, `SubtractSetsNoBorrow`: sums of 255 and 256, differences of 0 and -1, and x other than VF. -/
theorem test_witness_flags :
    ((0x80#8 : Byte).toNat + (0x7F#8 : Byte).toNat ≤ 255) ∧ ((0x80#8 : Byte).toNat + (0x80#8 : Byte).toNat > 255) ∧
      ((0x20#8 : Byte).toNat ≤ (0x20#8 : Byte).toNat) ∧ ¬ ((0x20#8 : Byte).toNat ≤ (0x1F#8 : Byte).toNat) ∧
      (0x0#4 : Digit) ≠ vf := by decide

/-- `ShiftsByOne`: the operand in each variant. -/
theorem test_witness_shifts :
    ((withRegs [(0x2#4, 0x05#8)] State.reset).variant = .legacy ∧
      5 = ((withRegs [(0x2#4, 0x05#8)] State.reset).reg 0x2#4).toNat) ∧
    ((modern (withRegs [(0x1#4, 0x81#8)] State.reset)).variant = .modern ∧
      0x81 = ((modern (withRegs [(0x1#4, 0x81#8)] State.reset)).reg 0x1#4).toNat) := by decide

/-- `BcdStoresThreeDigits`: the last address that fits and the first that does not. -/
theorem test_witness_bcd :
    State.memWf (State.reset.setIndex 0x0FFD#16) ∧ (State.reset.setIndex 0x0FFD#16).indexAddr + 2 ≤ 0xFFF ∧
      0xFFF < (State.reset.setIndex 0x0FFE#16).indexAddr + 2 := ⟨rfl, by decide, by decide⟩

/-- `StoreRegistersToMemory`, `LoadRegistersFromMemory`: x = 0 and x = 15 at the last address that fits and the first
that does not. -/
theorem test_witness_block :
    (State.reset.setIndex 0x0FFF#16).indexAddr + (0x0#4 : Digit).toNat ≤ 0xFFF ∧
      0xFFF < (State.reset.setIndex 0x1000#16).indexAddr + (0x0#4 : Digit).toNat ∧
      (State.reset.setIndex 0x0FF0#16).indexAddr + (0xF#4 : Digit).toNat ≤ 0xFFF ∧
      0xFFF < (State.reset.setIndex 0x0FF1#16).indexAddr + (0xF#4 : Digit).toNat ∧
      State.memWf (State.reset.setIndex 0x0FF0#16) :=
  ⟨by decide, by decide, by decide, by decide, rfl⟩

/-- `StoreThenLoadRestoresRegisters`: a store that completes, and a state with its memory and the old I. -/
theorem test_witness_store_load :
    ∃ s t r : State, s.memWf ∧ s.indexAddr + (0x2#4 : Digit).toNat ≤ 0xFFF ∧ exec (.stm 0x2#4) s = .next t ∧
      r.mem = t.mem ∧ r.index = s.index :=
  ⟨State.reset.setIndex 0x0400#16, _, State.setIndex _ 0x0400#16, rfl, by decide, rfl, rfl, rfl⟩

/-- `DrawXorsTheSprite`: no row, rows up to the last byte of memory, and one byte too many. -/
theorem test_witness_draw :
    ((0x0#4 : Digit).toNat = 0) ∧ (State.reset.setIndex 0x0FFE#16).indexAddr + (0x2#4 : Digit).toNat ≤ 4096 ∧
      ((0x2#4 : Digit).toNat ≠ 0 ∧ 4096 < (State.reset.setIndex 0x0FFF#16).indexAddr + (0x2#4 : Digit).toNat) ∧
      0 = (State.reset.reg 0x0#4).toNat % 64 ∧ 0 = (State.reset.reg 0x1#4).toNat % 32 := by decide

/-- `DrawXorsTheSprite`, the flag: a lit pixel under a set bit, and no lit pixel at all. -/
theorem test_witness_collision :
    ((withBytes 0x300 [0x80#8] (withRow 0 0x8000000000000000#64 State.reset)).pixel 0 0 = true ∧
      (withBytes 0x300 [0x80#8] (withRow 0 0x8000000000000000#64 State.reset)).spriteBit 0x300 1 0 0 0 0 = true) ∧
    ¬ ∃ r c : Nat, r < 32 ∧ c < 64 ∧ State.reset.pixel r c = true ∧
        State.reset.spriteBit 0x300 1 0 0 r c = true := by
  refine ⟨by decide, ?_⟩
  rintro ⟨r, c, hr, hc, h, -⟩
  simp [State.pixel, State.reset, hr] at h

/-- `DrawTwiceRestoresDisplay`: two coordinates other than VF, and a sprite that fits. -/
theorem test_witness_draw_twice :
    (0x0#4 : Digit) ≠ vf ∧ (0x1#4 : Digit) ≠ vf ∧
      (State.reset.setIndex 0x0082#16).indexAddr + (0x5#4 : Digit).toNat ≤ 4096 := by decide

/-- `KeySkips`: a key held, a key not held, and a number above 15. -/
theorem test_witness_keys :
    (∃ k : Nat, k ≤ 15 ∧ ((withInputs 0x8000#16 none 0x00#8 (withRegs [(0x2#4, 0x0F#8)] State.reset)).reg 0x2#4).toNat = k ∧
      (withInputs 0x8000#16 none 0x00#8 (withRegs [(0x2#4, 0x0F#8)] State.reset)).inputs.keys.getLsbD k = true) ∧
    (¬ ∃ k : Nat, k ≤ 15 ∧ ((withInputs 0x0000#16 none 0x00#8 State.reset).reg 0x2#4).toNat = k ∧
      (withInputs 0x0000#16 none 0x00#8 State.reset).inputs.keys.getLsbD k = true) ∧
    (¬ ∃ k : Nat, k ≤ 15 ∧ ((withRegs [(0x2#4, 0x10#8)] State.reset).reg 0x2#4).toNat = k ∧
      (withRegs [(0x2#4, 0x10#8)] State.reset).inputs.keys.getLsbD k = true) := by
  refine ⟨⟨15, by decide⟩, ?_, ?_⟩
  · rintro ⟨k, -, h, hk⟩
    have h0 : ((withInputs 0x0000#16 none 0x00#8 State.reset).reg 0x2#4).toNat = 0 := by decide
    subst h
    rw [h0] at hk
    exact absurd hk (by decide)
  · rintro ⟨k, hk, h, -⟩
    have h0 : ((withRegs [(0x2#4, 0x10#8)] State.reset).reg 0x2#4).toNat = 16 := by decide
    omega

/-- `KeyWaitStaysUntilPress`: a press reported, and none. -/
theorem test_witness_key_wait :
    (withInputs 0x0000#16 (some 0x0#4) 0x00#8 State.reset).inputs.lastKey = some 0x0#4 ∧
      (withInputs 0x0000#16 none 0x00#8 State.reset).inputs.lastKey = none := by decide

/-- `NoOpsOnlyAdvance`: a word of each class that no matched row takes, and the neighbours of a matched sub-key. -/
theorem test_witness_noop_words :
    (0x0E1#12 : Addr12).setWidth 8 ∉ [0xE0#8, 0xEE#8] ∧
      (0xF#4 : Digit) ∈ [0x8#4, 0x9#4, 0xA#4, 0xB#4, 0xC#4, 0xD#4, 0xF#4] ∧
      (0x9F#8 : Byte) ∉ [0x9E#8, 0xA1#8] ∧
      (0x75#8 : Byte) ∉ [0x07#8, 0x0A#8, 0x15#8, 0x18#8, 0x1E#8, 0x29#8, 0x33#8, 0x55#8, 0x65#8] := by decide

/-- `NoOpsOnlyAdvance`, `LogicOpsAndVf`: the lists the statements range over have members. -/
theorem test_witness_lists :
    Instr.sys 0x000#12 ∈ [Instr.sys 0x000#12, Instr.nop8 0x0#4 0x0#4 0x8#4, Instr.nope 0x0#4 0x00#8, Instr.nopf 0x0#4 0x00#8] ∧
      ("DRW" : String) ∈ ["DRW", "BCD", "STM", "LDM"] := by decide

/-- `EveryInstructionKeepsItsFrame`, `RedrawExactlyForDisplayInstructions`, `OnlyDrawReadsDisplay`,
`SoundTimerIsWrittenAndNeverRead`: a running machine and an instruction with a next state. -/
theorem test_witness_exec :
    State.reset.fault = .noFault ∧ (Instr.ld 0x1#4 0x05#8).mnemonic ≠ "DRW" ∧
      ∃ t, exec (.ld 0x1#4 0x05#8) State.reset = .next t := ⟨rfl, by decide, _, rfl⟩

/-- `OnlyFourInstructionsFaultPrecisely`: a `BCD` that changes the latch. -/
theorem test_witness_mem_fault :
    ∃ t, exec (.bcd 0x0#4) (State.reset.setIndex 0x0FFE#16) = .next t ∧
      t.fault ≠ (State.reset.setIndex 0x0FFE#16).fault := ⟨_, rfl, by decide⟩

/-- `OnlyFourFamiliesReadVariant`, `OnlyFourInstructionsReadInputs`: an instruction outside each list. -/
theorem test_witness_readers :
    (Instr.addr 0x1#4 0x2#4).mnemonic ∉ ["OR", "AND", "XOR", "SHR", "SHL", "JPV", "STM", "LDM"] ∧
      (Instr.addr 0x1#4 0x2#4).mnemonic ∉ ["SKP", "SKNP", "LDK", "RND"] := by decide

/-- `StepRunsTheDecodedInstruction`: a running machine at the last address a fetch can begin at. -/
theorem test_witness_step :
    (withBytes 0xFFE [0x6A#8, 0x42#8] (withPc 0x0FFE#16 State.reset)).fault = .noFault ∧
      (withBytes 0xFFE [0x6A#8, 0x42#8] (withPc 0x0FFE#16 State.reset)).pc.toNat ≤ 0xFFE ∧
      (Instr.ld 0xA#4 0x42#8).wellFormed = true ∧
      decode [(withBytes 0xFFE [0x6A#8, 0x42#8] State.reset).mem.read 0xFFE,
        (withBytes 0xFFE [0x6A#8, 0x42#8] State.reset).mem.read 0xFFF] = .ok (.ld 0xA#4 0x42#8, []) := by decide

/-- `FetchWordRunsNext`: a canonical memory, and a word. -/
theorem test_witness_fetch_word :
    State.reset.memWf ∧ decodeTableWord 16 0x6A42 = some (.ld 0xA#4 0x42#8) := ⟨rfl, by decide⟩

/-- `StoreIsSeenByNextFetch`: program P8 at its fourth step. -/
theorem test_witness_store_seen :
    ∃ s t : State, s.memWf ∧ s.fault = .noFault ∧ s.pc.toNat ≤ 0xFFC ∧ (0x1#4 : Digit) ≠ 0x0#4 ∧
      s.indexAddr = s.pc.toNat + 2 ∧ s.indexAddr + (0x1#4 : Digit).toNat ≤ 0xFFF ∧
      exec (.stm 0x1#4) s = .next t :=
  ⟨(withRegs [(0x0#4, 0x12#8), (0x1#4, 0x08#8)] (withPc 0x0206#16 State.reset)).setIndex 0x0208#16, _,
    rfl, rfl, by decide, by decide, by decide, by decide, rfl⟩

/-- `FetchBeyondMemoryFaults`: the first address a fetch cannot begin at. -/
theorem test_witness_fetch_fault :
    (withPc 0x0FFF#16 State.reset).fault = .noFault ∧ 0xFFE < (withPc 0x0FFF#16 State.reset).pc.toNat := by decide

/-- `StoppedMachineOnlyTicks`: both fault codes. -/
theorem test_witness_stopped :
    (withFault .memRange State.reset).fault ≠ .noFault ∧ (withFault .fetchRange State.reset).fault ≠ .noFault := by decide

/-- `HostTurnOnlyTicks`, the invariants: a step with a next state, from the reset state. -/
theorem test_witness_step_next : ∃ t, step State.reset = .next t := ⟨_, rfl⟩

/-- `EveryNumberOfTicksIsAdmitted`: a scheduled turn of three ticks. -/
theorem test_witness_schedule :
    ∃ u, stepEvent { State.reset with schedule := [⟨3, State.reset.inputs⟩] } = .next u := ⟨_, rfl⟩

/-- `LoadWritesTheImage`: an image of the largest size, one byte more, and a machine that takes no image. -/
theorem test_witness_load :
    (List.replicate 3584 (0x12#8 : Byte)).length ≤ 3584 ∧ State.reset.loadable = true ∧
      3584 < (List.replicate 3585 (0x12#8 : Byte)).length ∧ State.reset.closeLoad.loadable = false :=
  ⟨by rw [List.length_replicate], rfl, by rw [List.length_replicate]; omega, rfl⟩

/-- `OnlyResetChangesVariantOrClearsFault`: RESET does each. -/
theorem test_witness_reset :
    (∃ t, deliver (.reset .modern (Vector.replicate 80 0x00#8)) State.reset = .next t ∧ t.variant ≠ State.reset.variant) ∧
    ∃ t, deliver (.reset .legacy (Vector.replicate 80 0x00#8)) (withFault .memRange State.reset) = .next t ∧
      (withFault .memRange State.reset).fault ≠ .noFault ∧ t.fault ≠ (withFault .memRange State.reset).fault :=
  ⟨⟨_, rfl, by decide⟩, _, rfl, by decide, by decide⟩

/-- `StableEndIsStable`: `JP 0x200` at 0x200 (vector CF2). -/
theorem test_witness_stable_end : (withBytes 0x200 [0x12#8, 0x00#8] State.reset).stableEnd 0x200#12 :=
  ⟨rfl, by decide, by decide, by decide, by decide⟩

/-- `DecodeInvertsEncode`: a well-formed term of each no-op row. -/
theorem test_witness_well_formed :
    (Instr.sys 0x0E1#12).wellFormed = true ∧ (Instr.nop8 0x0#4 0x0#4 0xF#4).wellFormed = true ∧
      (Instr.nope 0x0#4 0x9F#8).wellFormed = true ∧ (Instr.nopf 0x0#4 0x75#8).wellFormed = true := by decide

/-- `StepsKeepMemoryCanonical`, `StepsKeepPcBounded`: states that meet the invariants, one of them at the bound. -/
theorem test_witness_invariants :
    State.reset.memWf ∧ State.reset.pcBounded ∧ (withPc 0x10FE#16 (withStack 16 0x1000#16 State.reset)).pcBounded := by
  refine ⟨rfl, ⟨by decide, by decide⟩, ⟨by decide, by decide⟩⟩

/-- The invariants are not empty: a memory with a cell equal to what an unlisted address reads as is not canonical, nor is one
with a cell outside the space. -/
theorem test_memory_not_canonical :
    Memory.wf [⟨0x300, 0x00#8⟩] = false ∧ Memory.wf [⟨0x1000, 0x01#8⟩] = false ∧
      Memory.wf [⟨0x301, 0x01#8⟩, ⟨0x300, 0x01#8⟩] = false := by decide

/-- `CanonicalMemoriesAreEqualData`: two ways to the same memory. -/
theorem test_witness_canonical :
    Memory.wf (Memory.write (Memory.write [] 0x300 0x05#8) 0x300 0x00#8) = true ∧ Memory.wf [] = true ∧
      Memory.write (Memory.write [] 0x300 0x05#8) 0x300 0x00#8 = [] := by decide

end Sys2Proof.Tests
end

section
/-! Proofs: control transfer (40_control_flow R81 to R83). First the rules about frames, the stack cursor and the stack,
then what `JP`, `CALL` and `RET` answer, then the obligations. -/

namespace Sys2Proof.Machine

/-! ### Frames -/

theorem State.frame_refl (s : State) (regs : List Digit) (parts : List Part) : s.frame s regs parts :=
  ⟨fun _ _ => rfl, fun p _ => by cases p <;> simp [State.keeps]⟩

/-- The PC and the step's output are outside every frame. -/
theorem State.frame_goTo {s t : State} {regs : List Digit} {parts : List Part} (h : s.frame t regs parts)
    (target : Word) : s.frame (t.goTo target) regs parts := by
  obtain ⟨hregs, hparts⟩ := h
  refine ⟨fun k hk => by simpa using hregs k hk, fun p hp => ?_⟩
  have hkeeps := hparts p hp
  cases p <;> exact hkeeps

theorem State.frame_push (s : State) (p : Word) : s.frame (s.push p) [] [.stack] := by
  refine ⟨fun k _ => s.reg_push k p, fun q hq => ?_⟩
  cases q <;> simp [State.keeps] at hq ⊢

theorem State.frame_pop (s : State) : s.frame s.pop [] [.stack] := by
  refine ⟨fun k _ => s.reg_pop k, fun q hq => ?_⟩
  cases q <;> simp [State.keeps] at hq ⊢

/-! ### The stack cursor (10_state R18) -/

@[simp] theorem State.sp_goTo (s : State) (target : Word) : (s.goTo target).sp = s.sp := rfl

theorem State.sp_lt_iff (s : State) : s.sp < 15 ↔ s.stackUsed.val < 16 := by
  unfold State.sp; omega

theorem State.sp_eq_iff_full (s : State) : s.sp = 15 ↔ s.stackUsed.val = 16 := by
  unfold State.sp; omega

theorem State.sp_eq_iff_empty (s : State) : s.sp = -1 ↔ s.stackUsed.val = 0 := by
  unfold State.sp; omega

/-- The cursor is -1 or the number of a stack entry. -/
theorem State.sp_cases (s : State) : s.sp = -1 ∨ ∃ k : Fin 16, (k.val : Int) = s.sp := by
  rw [State.sp_eq_iff_empty]
  rcases Nat.eq_zero_or_pos s.stackUsed.val with h | h
  · exact .inl h
  · exact .inr ⟨⟨s.stackUsed.val - 1, by omega⟩, by simp only [State.sp]; omega⟩

theorem State.sp_push_of_lt {s : State} (p : Word) (h : s.sp < 15) : (s.push p).sp = s.sp + 1 := by
  have hused := (State.push_of_lt p (s.sp_lt_iff.1 h)).1
  simp only [State.sp, hused]
  omega

theorem State.sp_pop {s : State} (h : 0 ≤ s.sp) : s.pop.sp = s.sp - 1 := by
  simp only [State.sp, State.pop_stackUsed] at h ⊢
  omega

/-- Entry k after a push below a full stack: the entry at the new cursor is the one pushed, every other is as before. -/
theorem State.stack_push_of_sp_lt {s : State} (p : Word) (h : s.sp < 15) (k : Fin 16) :
    (s.push p).stack[k.val] = if (k.val : Int) = s.sp + 1 then p else s.stack[k.val] := by
  have hk : (k.val : Int) = s.sp + 1 ↔ s.stackUsed.val = k.val := by unfold State.sp; omega
  simp only [State.getElem_push_stack p (s.sp_lt_iff.1 h), hk]

/-! ### What the instructions answer -/

theorem exec_jp (nnn : Addr12) (s : State) : exec (.jp nnn) s = .next (s.goTo (zext16 nnn)) := rfl

theorem exec_call (nnn : Addr12) (s : State) :
    exec (.call nnn) s = .next ((s.push s.npc).goTo (zext16 nnn)) := rfl

theorem exec_ret (d : Digit) (s : State) : exec (.ret d) s = execRet d s := rfl

theorem exec_ret_of_empty (d : Digit) {s : State} (h : s.sp = -1) : exec (.ret d) s = .next s.advance := by
  rw [exec_ret, execRet_eq, dif_pos (s.sp_eq_iff_empty.1 h)]

theorem exec_ret_of_sp_eq (d : Digit) {s : State} {k : Fin 16} (h : (k.val : Int) = s.sp) :
    exec (.ret d) s = .next (s.pop.goTo s.stack[k.val]) := by
  have hused : s.stackUsed.val = k.val + 1 := by unfold State.sp at h; omega
  simp [exec_ret, execRet_eq, hused]

@[simp] theorem toNat_zext16 (nnn : Addr12) : (zext16 nnn).toNat = nnn.toNat :=
  BitVec.toNat_setWidth_of_le (by decide)

/-! ### The obligations -/

/-- Settles O1: `JP` is one `goTo`, which only the PC and the step's output feel. -/
theorem jumpGoesToItsAddress : Obligations.JumpGoesToItsAddress := by
  intro nnn s
  exact ⟨Laws.RoundTrip.jp nnn rfl, _, exec_jp nnn s, toNat_zext16 nnn, rfl, State.frame_goTo (s.frame_refl _ _) _⟩

/-- Settles O2: the push by the cursor's two cases, below a full stack and on one; the jump is the same in both. -/
theorem callPushesAndJumps : Obligations.CallPushesAndJumps := by
  intro nnn s
  refine ⟨Laws.RoundTrip.call nnn rfl, _, exec_call nnn s, toNat_zext16 nnn, rfl, ?_, ?_,
    State.frame_goTo (s.frame_push _) _⟩
  · intro hlt
    refine ⟨State.sp_push_of_lt _ hlt, fun k => ⟨fun hk => ?_, fun hk => ?_⟩⟩
    · exact (State.stack_push_of_sp_lt _ hlt k).trans (if_pos hk)
    · exact (State.stack_push_of_sp_lt _ hlt k).trans (if_neg hk)
  · intro hfull
    rw [State.push_of_full _ (s.sp_eq_iff_full.1 hfull)]
    exact ⟨hfull, rfl⟩

/-- Settles O3: by the cursor, which is -1 or the number of the entry popped. -/
theorem returnPopsOrFallsThrough : Obligations.ReturnPopsOrFallsThrough := by
  intro d s
  refine ⟨Laws.RoundTrip.ret d rfl, ?_⟩
  rcases s.sp_cases with hempty | ⟨k, hk⟩
  · refine ⟨_, exec_ret_of_empty d hempty, rfl, rfl, ?_, fun _ => ⟨rfl, hempty⟩,
      State.frame_goTo (s.frame_refl _ _) _⟩
    intro j hj
    omega
  · refine ⟨_, exec_ret_of_sp_eq d hk, rfl, rfl, ?_, ?_, State.frame_goTo s.frame_pop _⟩
    · intro j hj
      obtain rfl : j = k := Fin.ext (by omega)
      exact ⟨rfl, State.sp_pop (by omega)⟩
    · intro hempty
      omega

end Sys2Proof.Machine
end

section
/-! Proofs: the skips on registers (41_skips R90 to R93). First the rule of the shared operation `skipIf`, then what the
four instructions answer, then the obligation. -/

namespace Sys2Proof.Machine

/-! ### The shared skip (41_skips R94) -/

/-- `skipIf` ends a step as a skip on any condition its Boolean decides. -/
theorem State.endsSkip_skipIf (s : State) {c : Bool} {cond : Prop} (hc : c = true ↔ cond) :
    s.endsSkip (s.skipIf c) cond := by
  have hframe : s.frame (s.skipIf c) [] [] := State.frame_goTo (s.frame_refl _ _) _
  refine ⟨fun h => ?_, fun h => ?_, s.skipIf_redraw c, hframe⟩
  · rw [State.skipIf_pc, if_pos (hc.2 h)]
    exact BitVec.add_assoc s.pc 2#16 2#16
  · rw [State.skipIf_pc, if_neg (mt hc.1 h)]

theorem State.endsSkip_skipIf_decide (s : State) (cond : Prop) [Decidable cond] :
    s.endsSkip (s.skipIf (decide cond)) cond :=
  s.endsSkip_skipIf decide_eq_true_iff

/-! ### What the instructions answer -/

theorem exec_se (x : Digit) (nn : Byte) (s : State) :
    exec (.se x nn) s = .next (s.skipIf (decide (s.reg x = nn))) := rfl

theorem exec_sne (x : Digit) (nn : Byte) (s : State) :
    exec (.sne x nn) s = .next (s.skipIf (decide (s.reg x ≠ nn))) := rfl

theorem exec_ser (x y d : Digit) (s : State) :
    exec (.ser x y d) s = .next (s.skipIf (decide (s.reg x = s.reg y))) := rfl

theorem exec_sner (x y d : Digit) (s : State) :
    exec (.sner x y d) s = .next (s.skipIf (decide (s.reg x ≠ s.reg y))) := rfl

/-! ### The obligation -/

/-- Settles O6: the words by the round trip; each instruction is one `skipIf` on its own condition. -/
theorem registerSkips : Obligations.RegisterSkips := by
  intro x y d nn s
  refine ⟨⟨Laws.RoundTrip.se x nn rfl, Laws.RoundTrip.sne x nn rfl, Laws.RoundTrip.ser x y d rfl,
    Laws.RoundTrip.sner x y d rfl⟩, ?_, ?_, ?_, ?_⟩
  · exact ⟨_, exec_se x nn s, s.endsSkip_skipIf_decide _⟩
  · exact ⟨_, exec_sne x nn s, s.endsSkip_skipIf_decide _⟩
  · exact ⟨_, exec_ser x y d s, s.endsSkip_skipIf_decide _⟩
  · exact ⟨_, exec_sner x y d s, s.endsSkip_skipIf_decide _⟩

end Sys2Proof.Machine
end

section
/-! Proofs: the immediate load and add (42_immediate_random R100, R101). First the rule of a step that writes one register
and ends, then what `LD` and `ADD` answer, then the obligation. -/

namespace Sys2Proof.Machine

/-! ### A step that writes one register -/

theorem State.frame_setReg (s : State) (x : Digit) (b : Byte) : s.frame (s.setReg x b) [x] [] := by
  refine ⟨fun k hk => ?_, fun p _ => ?_⟩
  · rw [State.reg_setReg, if_neg (List.ne_of_not_mem_cons hk)]
  · cases p <;> simp [State.keeps]

theorem State.reg_setReg_advance (s : State) (x : Digit) (b : Byte) : (s.setReg x b).advance.reg x = b := by
  simp [State.reg_setReg]

/-- How a step that writes only `V[x]` ends: at the next instruction, `NoChange`, with no flag and no other state touched. -/
theorem State.setReg_advance_endsNext_and_frame (s : State) (x : Digit) (b : Byte) :
    s.endsNext (s.setReg x b).advance ∧ s.frame (s.setReg x b).advance [x] [] :=
  ⟨⟨rfl, rfl⟩, State.frame_goTo (s.frame_setReg x b) _⟩

/-! ### What the instructions answer -/

theorem exec_ld (x : Digit) (nn : Byte) (s : State) : exec (.ld x nn) s = .next (s.setReg x nn).advance := rfl

theorem exec_add (x : Digit) (nn : Byte) (s : State) :
    exec (.add x nn) s = .next (s.setReg x (s.reg x + nn)).advance := rfl

/-! ### The obligation -/

/-- Settles O7: the words by the round trip; each instruction is one register write, and `ADD`'s byte is the sum modulo 256. -/
theorem immediateLoadAndAdd : Obligations.ImmediateLoadAndAdd := by
  intro x nn s
  refine ⟨⟨Laws.RoundTrip.ld x nn rfl, Laws.RoundTrip.add x nn rfl⟩, ?_, ?_⟩
  · exact ⟨_, exec_ld x nn s, s.reg_setReg_advance x nn, s.setReg_advance_endsNext_and_frame x nn⟩
  · refine ⟨_, exec_add x nn s, ?_, s.setReg_advance_endsNext_and_frame x _⟩
    rw [State.reg_setReg_advance, BitVec.toNat_add]

end Sys2Proof.Machine
end

section
/-! Proofs: the register copy (43_alu R111): what `MOV` answers, then the obligation by the rules of a step that writes one
register. -/

namespace Sys2Proof.Machine

/-! ### What the instruction answers -/

theorem exec_mov (x y : Digit) (s : State) : exec (.mov x y) s = .next (s.setReg x (s.reg y)).advance := rfl

/-! ### The obligation -/

/-- Settles O9: the word by the round trip; `MOV` is one register write, the same in both variants. -/
theorem moveCopiesRegister : Obligations.MoveCopiesRegister := by
  intro x y s
  exact ⟨Laws.RoundTrip.mov x y rfl, _, exec_mov x y s, s.reg_setReg_advance x (s.reg y),
    s.setReg_advance_endsNext_and_frame x (s.reg y)⟩

end Sys2Proof.Machine
end

section
/-! Proofs: the immediate load of the index register (44_index_memory R130). First the rule of a step that writes only I and
ends, then what `LDI` answers, then the obligation. -/

namespace Sys2Proof.Machine

/-! ### A step that writes the index register -/

theorem State.frame_setIndex (s : State) (a : Word) : s.frame (s.setIndex a) [] [.index] := by
  refine ⟨fun k _ => s.reg_setIndex k a, fun p hp => ?_⟩
  cases p <;> simp [State.keeps] at hp ⊢

/-- How a step that writes only I ends: at the next instruction, `NoChange`, with no register or other state touched. -/
theorem State.setIndex_advance_endsNext_and_frame (s : State) (a : Word) :
    s.endsNext (s.setIndex a).advance ∧ s.frame (s.setIndex a).advance [] [.index] :=
  ⟨⟨rfl, rfl⟩, State.frame_goTo (s.frame_setIndex a) _⟩

/-! ### What the instruction answers -/

theorem exec_ldi (nnn : Addr12) (s : State) : exec (.ldi nnn) s = .next (s.setIndex (zext16 nnn)).advance := rfl

/-! ### The obligation -/

/-- Settles O14: the word by the round trip; `LDI` is one write of I, of the address with its value kept. -/
theorem loadIndexImmediate : Obligations.LoadIndexImmediate := by
  intro nnn s
  exact ⟨Laws.RoundTrip.ldi nnn rfl, _, exec_ldi nnn s, toNat_zext16 nnn,
    s.setIndex_advance_endsNext_and_frame (zext16 nnn)⟩

end Sys2Proof.Machine
end

section
/-! Proofs: clearing the display (45_display R140). First the rules about a new frame buffer, the redraw output and the
cleared display, then what `CLS` answers, then the obligation. -/

namespace Sys2Proof.Machine

/-! ### A step that writes the display -/

theorem State.frame_setDisp (s : State) (d : Vector (BitVec 64) 32) : s.frame (s.setDisp d) [] [.disp] := by
  refine ⟨fun k _ => s.reg_setDisp k d, fun p hp => ?_⟩
  cases p <;> simp [State.keeps] at hp ⊢

/-- The step's output is outside every frame. -/
theorem State.frame_signalRedraw {s t : State} {regs : List Digit} {parts : List Part} (h : s.frame t regs parts) :
    s.frame t.signalRedraw regs parts := by
  obtain ⟨hregs, hparts⟩ := h
  refine ⟨fun k hk => by simpa using hregs k hk, fun p hp => ?_⟩
  have hkeeps := hparts p hp
  cases p <;> exact hkeeps

/-- On a cleared display no pixel is lit; one outside the 32 rows and 64 columns never is. -/
theorem State.pixel_eq_false_of_disp_eq_clearDisp {s : State} (h : s.disp = clearDisp) (r c : Nat) :
    s.pixel r c = false := by
  have hrow : s.disp[r]?.getD 0#64 = 0#64 := by
    rw [h, clearDisp, Vector.getElem?_replicate]
    split <;> rfl
  rw [State.pixel, hrow, BitVec.getMsbD_zero]

/-! ### What the instruction answers -/

theorem exec_cls (d : Digit) (s : State) :
    exec (.cls d) s = .next (s.setDisp clearDisp).advance.signalRedraw := rfl

/-! ### The obligation -/

/-- Settles O20: the word by the round trip; `CLS` is one write of the cleared display, with the redraw output set at the
step's end. -/
theorem clearDisplayClearsEveryPixel : Obligations.ClearDisplayClearsEveryPixel := by
  intro d s
  exact ⟨Laws.RoundTrip.cls d rfl, _, exec_cls d s, fun r c _ _ => State.pixel_eq_false_of_disp_eq_clearDisp rfl r c,
    rfl, rfl, State.frame_signalRedraw (State.frame_goTo (s.frame_setDisp clearDisp) _)⟩

end Sys2Proof.Machine
end

section
/-! Proofs: the key wait and the timer transfers (46_keypad_timers R152 to R155). First the rules of a step that writes one
timer and ends, then what `LDK`, `LDVDT`, `LDDT` and `LDST` answer, then the obligations on the key wait and the delay timer. -/

namespace Sys2Proof.Machine

/-! ### A step that writes a timer -/

theorem State.frame_setDt (s : State) (b : Byte) : s.frame (s.setDt b) [] [.dt] := by
  refine ⟨fun k _ => s.reg_setDt k b, fun p hp => ?_⟩
  cases p <;> simp [State.keeps] at hp ⊢

theorem State.frame_setSt (s : State) (b : Byte) : s.frame (s.setSt b) [] [.st] := by
  refine ⟨fun k _ => s.reg_setSt k b, fun p hp => ?_⟩
  cases p <;> simp [State.keeps] at hp ⊢

/-- How a step that writes only DT ends: at the next instruction, `NoChange`, with no register or other state touched. -/
theorem State.setDt_advance_endsNext_and_frame (s : State) (b : Byte) :
    s.endsNext (s.setDt b).advance ∧ s.frame (s.setDt b).advance [] [.dt] :=
  ⟨⟨rfl, rfl⟩, State.frame_goTo (s.frame_setDt b) _⟩

/-- How a step that writes only ST ends: at the next instruction, `NoChange`, with no register or other state touched. -/
theorem State.setSt_advance_endsNext_and_frame (s : State) (b : Byte) :
    s.endsNext (s.setSt b).advance ∧ s.frame (s.setSt b).advance [] [.st] :=
  ⟨⟨rfl, rfl⟩, State.frame_goTo (s.frame_setSt b) _⟩

/-! ### What the instructions answer -/

theorem exec_ldvdt (x : Digit) (s : State) : exec (.ldvdt x) s = .next (s.setReg x s.dt).advance := rfl

theorem exec_lddt (x : Digit) (s : State) : exec (.lddt x) s = .next (s.setDt (s.reg x)).advance := rfl

theorem exec_ldst (x : Digit) (s : State) : exec (.ldst x) s = .next (s.setSt (s.reg x)).advance := rfl

theorem exec_ldk (x : Digit) (s : State) : exec (.ldk x) s = execLdk x s := rfl

theorem exec_ldk_of_press (x : Digit) {s : State} {k : Digit} (h : s.inputs.lastKey = some k) :
    exec (.ldk x) s = .next (s.setReg x (k.setWidth 8)).advance := by
  rw [exec_ldk, execLdk_eq, h]

theorem exec_ldk_of_no_press (x : Digit) {s : State} (h : s.inputs.lastKey = none) :
    exec (.ldk x) s = .next (s.goTo s.pc) := by
  rw [exec_ldk, execLdk_eq, h]

/-! ### The obligations -/

/-- Settles O24: the word by the round trip; with a press `LDK` is one register write, without one a jump to its own PC. -/
theorem keyWaitStaysUntilPress : Obligations.KeyWaitStaysUntilPress := by
  intro x s
  refine ⟨Laws.RoundTrip.ldk x rfl, fun k hpress => ?_, fun hnone => ?_⟩
  · refine ⟨_, exec_ldk_of_press x hpress, ?_, s.setReg_advance_endsNext_and_frame x _⟩
    rw [State.reg_setReg_advance, BitVec.toNat_setWidth_of_le (by decide)]
  · exact ⟨_, exec_ldk_of_no_press x hnone, rfl, rfl, State.frame_goTo (s.frame_refl _ _) _⟩

/-- Settles O25: the words by the round trip; `LDVDT` is one register write, `LDDT` one write of DT. -/
theorem delayTimerTransfers : Obligations.DelayTimerTransfers := by
  intro x s
  refine ⟨⟨Laws.RoundTrip.ldvdt x rfl, Laws.RoundTrip.lddt x rfl⟩, ?_, ?_⟩
  · exact ⟨_, exec_ldvdt x s, s.reg_setReg_advance x s.dt, s.setReg_advance_endsNext_and_frame x s.dt⟩
  · exact ⟨_, exec_lddt x s, rfl, s.setDt_advance_endsNext_and_frame (s.reg x)⟩

end Sys2Proof.Machine
end

section
/-! Proofs: no instruction reads ST (46_keypad_timers R155). A change of ST commutes with every instruction but `LDST`, which
overwrites it: by definition where the meaning is one next state, by its condition, which does not mention ST, where it
branches. -/

namespace Sys2Proof.Machine

/-! ### Operands do not depend on ST -/

@[simp] theorem State.indexAddr_setSt (s : State) (b : Byte) : (s.setSt b).indexAddr = s.indexAddr := rfl
@[simp] theorem State.regsTo_setSt (s : State) (x : Digit) (b : Byte) : (s.setSt b).regsTo x = s.regsTo x := rfl
@[simp] theorem State.top_setSt (s : State) (b : Byte) : (s.setSt b).top = s.top := rfl

/-! ### A change of ST commutes with the shared operations that branch -/

theorem State.setLogic_setSt (s : State) (x : Digit) (r b : Byte) :
    (s.setSt b).setLogic x r = (s.setLogic x r).setSt b := by
  simp only [State.setLogic, State.setSt_variant]
  split <;> rfl

theorem State.push_setSt (s : State) (p : Word) (b : Byte) : (s.setSt b).push p = (s.push p).setSt b := by
  by_cases h : s.stackUsed.val < 16
  · exact (dif_pos h).trans (congrArg (State.setSt · b) (dif_pos h : s.push p = _)).symm
  · have hfull : s.stackUsed.val = 16 := by omega
    rw [State.push_of_full p hfull]
    exact State.push_of_full p hfull

/-! ### A change of ST commutes with the meanings that branch -/

theorem next_setLogic_setSt (s : State) (x : Digit) (r b : Byte) :
    (.next ((s.setSt b).setLogic x r).advance : Result) = onNext (·.setSt b) (.next (s.setLogic x r).advance) := by
  rw [State.setLogic_setSt]
  rfl

theorem execCall_setSt (nnn : Addr12) (s : State) (b : Byte) :
    execCall nnn (s.setSt b) = onNext (·.setSt b) (execCall nnn s) := by
  rw [execCall, State.push_setSt]
  rfl

theorem execRet_setSt (d : Digit) (s : State) (b : Byte) :
    execRet d (s.setSt b) = onNext (·.setSt b) (execRet d s) := by
  simp only [execRet, State.top_setSt]
  split <;> rfl

theorem execLdk_setSt (x : Digit) (s : State) (b : Byte) :
    execLdk x (s.setSt b) = onNext (·.setSt b) (execLdk x s) := by
  simp only [execLdk, State.setSt_inputs]
  split <;> rfl

theorem execDrw_setSt (x y n : Digit) (s : State) (b : Byte) :
    execDrw x y n (s.setSt b) = onNext (·.setSt b) (execDrw x y n s) := by
  simp only [execDrw, State.setSt_mem, State.indexAddr_setSt]
  split <;> rfl

theorem execBcd_setSt (x : Digit) (s : State) (b : Byte) :
    execBcd x (s.setSt b) = onNext (·.setSt b) (execBcd x s) := by
  simp only [execBcd, State.setSt_mem, State.indexAddr_setSt, State.reg_setSt]
  split <;> rfl

theorem execStm_setSt (x : Digit) (s : State) (b : Byte) :
    execStm x (s.setSt b) = onNext (·.setSt b) (execStm x s) := by
  simp only [execStm, State.setSt_mem, State.indexAddr_setSt, State.regsTo_setSt]
  split <;> rfl

theorem execLdm_setSt (x : Digit) (s : State) (b : Byte) :
    execLdm x (s.setSt b) = onNext (·.setSt b) (execLdm x s) := by
  simp only [execLdm, State.setSt_mem, State.indexAddr_setSt]
  split <;> rfl

/-! ### A change of ST before an instruction -/

/-- `LDST` forgets the ST it starts from. -/
theorem exec_ldst_setSt (x : Digit) (s : State) (b : Byte) : exec (.ldst x) (s.setSt b) = exec (.ldst x) s := rfl

/-- Every instruction but `LDST` carries a change of ST through to its next state. The cases named are the meanings that
branch on more than the target of a skip; the rest update fields other than ST by values that do not depend on it. -/
theorem exec_setSt_of_ne_ldst {i : Instr} (hi : ∀ x, i ≠ .ldst x) (s : State) (b : Byte) :
    exec i (s.setSt b) = onNext (·.setSt b) (exec i s) := by
  cases i with
  | ldst x => exact absurd rfl (hi x)
  | call nnn => exact execCall_setSt nnn s b
  | ret d => exact execRet_setSt d s b
  | or x y => exact next_setLogic_setSt s x _ b
  | and x y => exact next_setLogic_setSt s x _ b
  | xor x y => exact next_setLogic_setSt s x _ b
  | ldk x => exact execLdk_setSt x s b
  | drw x y n => exact execDrw_setSt x y n s b
  | bcd x => exact execBcd_setSt x s b
  | stm x => exact execStm_setSt x s b
  | ldm x => exact execLdm_setSt x s b
  | _ => rfl

/-! ### The obligation -/

/-- Settles O26: `LDST` is one write of ST, and forgets the old one; every other instruction carries it along unread. -/
theorem soundTimerIsWrittenAndNeverRead : Obligations.SoundTimerIsWrittenAndNeverRead := by
  refine ⟨fun x s => ⟨Laws.RoundTrip.ldst x rfl, _, exec_ldst x s, rfl,
    s.setSt_advance_endsNext_and_frame (s.reg x)⟩, fun i s t b ht => ?_⟩
  by_cases hi : ∃ x, i = .ldst x
  · obtain ⟨x, rfl⟩ := hi
    exact ⟨t.st, (exec_ldst_setSt x s b).trans ht⟩
  · refine ⟨b, ?_⟩
    rw [exec_setSt_of_ne_ldst (not_exists.1 hi), ht]
    rfl

end Sys2Proof.Machine
end

section
/-! Proofs: the unmatched words (47_noops R160 to R164). First when a no-op term is well formed, then how a step that writes
nothing ends and what the four no-ops answer, then the obligation. -/

namespace Sys2Proof.Machine

/-! ### The sub-keys of the no-op rows (30_encoding R63) -/

theorem wellFormed_sys_iff (nnn : Addr12) :
    (Instr.sys nnn).wellFormed = true ↔ nnn.setWidth 8 ∉ matchedNn0 := by
  simp [Instr.wellFormed]

theorem wellFormed_nop8_iff (x y n : Digit) : (Instr.nop8 x y n).wellFormed = true ↔ n ∉ matchedN8 := by
  simp [Instr.wellFormed]

theorem wellFormed_nope_iff (x : Digit) (nn : Byte) : (Instr.nope x nn).wellFormed = true ↔ nn ∉ matchedNnE := by
  simp [Instr.wellFormed]

theorem wellFormed_nopf_iff (x : Digit) (nn : Byte) : (Instr.nopf x nn).wellFormed = true ↔ nn ∉ matchedNnF := by
  simp [Instr.wellFormed]

/-- The last digits R161 lists for `NOP8` are none of those of a matched row of class 8. -/
theorem unmatchedN8_disjoint_matchedN8 :
    ∀ n ∈ [0x8#4, 0x9#4, 0xA#4, 0xB#4, 0xC#4, 0xD#4, 0xF#4], n ∉ matchedN8 := by decide

/-! ### A step that writes nothing -/

/-- How a step that writes nothing ends: at the next instruction, `NoChange`, with no register or other state touched. -/
theorem State.advance_endsNext_and_frame (s : State) : s.endsNext s.advance ∧ s.frame s.advance [] [] :=
  ⟨⟨rfl, rfl⟩, State.frame_goTo (s.frame_refl _ _) _⟩

/-! ### What the instructions answer -/

theorem exec_sys (nnn : Addr12) (s : State) : exec (.sys nnn) s = .next s.advance := rfl

theorem exec_nop8 (x y n : Digit) (s : State) : exec (.nop8 x y n) s = .next s.advance := rfl

theorem exec_nope (x : Digit) (nn : Byte) (s : State) : exec (.nope x nn) s = .next s.advance := rfl

theorem exec_nopf (x : Digit) (nn : Byte) (s : State) : exec (.nopf x nn) s = .next s.advance := rfl

/-! ### The obligation -/

/-- Settles O27: the words by the round trip, each row's sub-keys being those that make its term well formed; each
instruction is one `advance`. -/
theorem noOpsOnlyAdvance : Obligations.NoOpsOnlyAdvance := by
  intro nnn x y n nn s
  refine ⟨⟨fun h => ?_, fun h => ?_, fun h => ?_, fun h => ?_⟩,
    fun i hi => ⟨s.advance, ?_, s.advance_endsNext_and_frame⟩⟩
  · exact Laws.RoundTrip.sys nnn ((wellFormed_sys_iff nnn).2 h)
  · exact Laws.RoundTrip.nop8 x y n ((wellFormed_nop8_iff x y n).2 (unmatchedN8_disjoint_matchedN8 n h))
  · exact Laws.RoundTrip.nope x nn ((wellFormed_nope_iff x nn).2 h)
  · exact Laws.RoundTrip.nopf x nn ((wellFormed_nopf_iff x nn).2 h)
  · simp only [List.mem_cons, List.not_mem_nil, or_false] at hi
    obtain rfl | rfl | rfl | rfl := hi
    · exact exec_sys nnn s
    · exact exec_nop8 x y n s
    · exact exec_nope x nn s
    · exact exec_nopf x nn s

end Sys2Proof.Machine
end

section
/-! Proofs: the `TICK` event (60_exceptions R180). First a timer's count-down by the rule's two cases and what one tick leaves
unchanged, then what the event answers, then the obligation. -/

namespace Sys2Proof.Machine

/-! ### One tick -/

theorem countDown_toNat_eq_ite (b : Byte) :
    (countDown b).toNat = if b.toNat > 0 then b.toNat - 1 else 0 := by
  rw [countDown_toNat]
  split <;> omega

theorem State.frame_tick (s : State) : s.frame s.tick [] [.dt, .st] := by
  refine ⟨fun k _ => s.reg_tick k, fun p hp => ?_⟩
  cases p <;> simp [State.keeps] at hp ⊢

/-! ### What the event answers -/

theorem deliver_tick (s : State) : deliver .tick s = .next s.tick := rfl

/-! ### The obligation -/

/-- Settles O40: `TICK` answers one tick, which counts both timers down and is felt by nothing else. -/
theorem tickCountsBothTimersDown : Obligations.TickCountsBothTimersDown := by
  intro s
  exact ⟨s.tick, deliver_tick s, countDown_toNat_eq_ite s.dt, countDown_toNat_eq_ite s.st,
    s.tick_pc, s.tick_redraw, s.frame_tick⟩

end Sys2Proof.Machine
end

section
/-! Proofs: decoding and encoding are inverse to each other (30_encoding R61 to R67). First a word put together again
from its fields, then the two directions, the second one class at a time. -/

namespace Sys2Proof

/-! ### A word from its own fields and bytes -/

theorem wordOfBytes_bytes (w : Word) : wordOfBytes (w.extractLsb' 8 8) (w.extractLsb' 0 8) = w :=
  BitVec.extractLsb'_append_extractLsb'

theorem wordNNN_fields (w : Word) : wordNNN (classOf w) (nnnOf w) = w :=
  BitVec.extractLsb'_append_extractLsb'

theorem nnnOf_eq_append (w : Word) : nnnOf w = xOf w ++ nnOf w :=
  (BitVec.extractLsb'_append_extractLsb'_eq_extractLsb' (x := w) (start₁ := 0) (len₁ := 8) (len₂ := 4) rfl).symm

theorem nnOf_eq_append (w : Word) : nnOf w = yOf w ++ nOf w :=
  (BitVec.extractLsb'_append_extractLsb'_eq_extractLsb' (x := w) (start₁ := 0) (len₁ := 4) (len₂ := 4) rfl).symm

theorem nnOf_eq_setWidth (w : Word) : nnOf w = (nnnOf w).setWidth 8 := by
  rw [← nnOf_wordNNN (classOf w), wordNNN_fields]

variable {w : Word} {c : Nat}

theorem wordNNN_of_class (h : (classOf w).toNat = c) : wordNNN (BitVec.ofNat 4 c) (nnnOf w) = w := by
  rw [← h, BitVec.ofNat_toNat, BitVec.setWidth_eq, wordNNN_fields]

theorem wordXNN_of_class (h : (classOf w).toNat = c) : wordXNN (BitVec.ofNat 4 c) (xOf w) (nnOf w) = w := by
  rw [wordXNN, ← nnnOf_eq_append]
  exact wordNNN_of_class h

theorem wordXYN_of_class (h : (classOf w).toNat = c) : wordXYN (BitVec.ofNat 4 c) (xOf w) (yOf w) (nOf w) = w := by
  rw [wordXYN, ← nnOf_eq_append]
  exact wordXNN_of_class h

/-! ### Encoding, then decoding -/

/-- The word of a well-formed instruction decodes to it: the round trip of every constructor. -/
theorem decodeWord_encodeWord {i : Instr} (h : i.wellFormed = true) : decodeWord (encodeWord i) = i := by
  cases i with
  | cls d => exact Laws.RoundTrip.cls d h
  | ret d => exact Laws.RoundTrip.ret d h
  | sys nnn => exact Laws.RoundTrip.sys nnn h
  | jp nnn => exact Laws.RoundTrip.jp nnn h
  | call nnn => exact Laws.RoundTrip.call nnn h
  | se x nn => exact Laws.RoundTrip.se x nn h
  | sne x nn => exact Laws.RoundTrip.sne x nn h
  | ser x y d => exact Laws.RoundTrip.ser x y d h
  | ld x nn => exact Laws.RoundTrip.ld x nn h
  | add x nn => exact Laws.RoundTrip.add x nn h
  | mov x y => exact Laws.RoundTrip.mov x y h
  | or x y => exact Laws.RoundTrip.or x y h
  | and x y => exact Laws.RoundTrip.and x y h
  | xor x y => exact Laws.RoundTrip.xor x y h
  | addr x y => exact Laws.RoundTrip.addr x y h
  | sub x y => exact Laws.RoundTrip.sub x y h
  | shr x y => exact Laws.RoundTrip.shr x y h
  | subn x y => exact Laws.RoundTrip.subn x y h
  | shl x y => exact Laws.RoundTrip.shl x y h
  | nop8 x y n => exact Laws.RoundTrip.nop8 x y n h
  | sner x y d => exact Laws.RoundTrip.sner x y d h
  | ldi nnn => exact Laws.RoundTrip.ldi nnn h
  | jpv nnn => exact Laws.RoundTrip.jpv nnn h
  | rnd x nn => exact Laws.RoundTrip.rnd x nn h
  | drw x y n => exact Laws.RoundTrip.drw x y n h
  | skp x => exact Laws.RoundTrip.skp x h
  | sknp x => exact Laws.RoundTrip.sknp x h
  | nope x nn => exact Laws.RoundTrip.nope x nn h
  | ldvdt x => exact Laws.RoundTrip.ldvdt x h
  | ldk x => exact Laws.RoundTrip.ldk x h
  | lddt x => exact Laws.RoundTrip.lddt x h
  | ldst x => exact Laws.RoundTrip.ldst x h
  | addi x => exact Laws.RoundTrip.addi x h
  | ldf x => exact Laws.RoundTrip.ldf x h
  | bcd x => exact Laws.RoundTrip.bcd x h
  | stm x => exact Laws.RoundTrip.stm x h
  | ldm x => exact Laws.RoundTrip.ldm x h
  | nopf x nn => exact Laws.RoundTrip.nopf x nn h

/-- Two bytes at the head decode to the instruction of their word; the bytes after them are left over. -/
theorem decode_bytesOfWord_append (w : Word) (rest : List Byte) :
    decode (bytesOfWord w ++ rest) = .ok (decodeWord w, rest) :=
  congrArg (fun v => Except.ok (decodeWord v, rest)) (wordOfBytes_bytes w)

/-! ### Decoding, then encoding -/

/-- The instruction is a well-formed one whose word is `w`. -/
def Instr.standsFor (i : Instr) (w : Word) : Prop := i.wellFormed = true ∧ encodeWord i = w

theorem decodeClass0_standsFor (h : (classOf w).toNat = 0x0) : (decodeClass0 w).standsFor w := by
  unfold decodeClass0
  split_ifs with hcls hret
  · exact ⟨rfl, by rw [encodeWord, ← hcls]; exact wordXNN_of_class h⟩
  · exact ⟨rfl, by rw [encodeWord, ← hret]; exact wordXNN_of_class h⟩
  · refine ⟨?_, wordNNN_of_class h⟩
    simp [Instr.wellFormed, matchedNn0, ← nnOf_eq_setWidth, hcls, hret]

/-! In the classes with sub-keys each test of the decoder says what the sub-key is, and the last branch that it is none of
those matched: just what the word of the term and its well-formedness need. -/

theorem decodeClass8_standsFor (x y n : Digit) : (decodeClass8 x y n).standsFor (wordXYN 0x8#4 x y n) := by
  unfold decodeClass8 Instr.standsFor
  split_ifs <;> simp_all [Instr.wellFormed, encodeWord, matchedN8]

theorem decodeClassE_standsFor (x : Digit) (nn : Byte) : (decodeClassE x nn).standsFor (wordXNN 0xE#4 x nn) := by
  unfold decodeClassE Instr.standsFor
  split_ifs <;> simp_all [Instr.wellFormed, encodeWord, matchedNnE]

theorem decodeClassF_standsFor (x : Digit) (nn : Byte) : (decodeClassF x nn).standsFor (wordXNN 0xF#4 x nn) := by
  unfold decodeClassF Instr.standsFor
  split_ifs <;> simp_all [Instr.wellFormed, encodeWord, matchedNnF]

/-- Every word decodes to a well-formed instruction whose word it is, class by class. -/
theorem decodeWord_standsFor (w : Word) : (decodeWord w).standsFor w := by
  unfold decodeWord
  split
  next h => exact decodeClass0_standsFor h
  next h => exact ⟨rfl, wordNNN_of_class h⟩
  next h => exact ⟨rfl, wordNNN_of_class h⟩
  next h => exact ⟨rfl, wordXNN_of_class h⟩
  next h => exact ⟨rfl, wordXNN_of_class h⟩
  next h => exact ⟨rfl, wordXYN_of_class h⟩
  next h => exact ⟨rfl, wordXNN_of_class h⟩
  next h => exact ⟨rfl, wordXNN_of_class h⟩
  next h => simpa [wordXYN_of_class h] using decodeClass8_standsFor (xOf w) (yOf w) (nOf w)
  next h => exact ⟨rfl, wordXYN_of_class h⟩
  next h => exact ⟨rfl, wordNNN_of_class h⟩
  next h => exact ⟨rfl, wordNNN_of_class h⟩
  next h => exact ⟨rfl, wordXNN_of_class h⟩
  next h => exact ⟨rfl, wordXYN_of_class h⟩
  next h => simpa [wordXNN_of_class h] using decodeClassE_standsFor (xOf w) (nnOf w)
  next =>
    have h : (classOf w).toNat = 0xF := by
      simp only [imp_false] at *
      omega
    simpa [wordXNN_of_class h] using decodeClassF_standsFor (xOf w) (nnOf w)

/-! ### The obligations -/

/-- Settles O48: the two bytes of a word form it again, and the word decodes to the instruction it was made of. -/
theorem decodeInvertsEncode : Obligations.DecodeInvertsEncode := by
  intro i rest h
  rw [encode, decode_bytesOfWord_append, decodeWord_encodeWord h]

/-- Settles O49: by the word's class and, in the classes with sub-keys, by the sub-key. -/
theorem encodeInvertsDecode : Obligations.EncodeInvertsDecode :=
  fun w => decodeWord_standsFor w

/-- Settles O47: the decoder computes each of the eight words. -/
theorem sampleWordsDecode : Obligations.SampleWordsDecode := by
  unfold Obligations.SampleWordsDecode
  decide

end Sys2Proof
end

section
/-! Proofs: words and the rows of the opcode map (30_encoding R63, R64). First the fields of a word that a row selects,
then the row each instruction stands in, then the obligation from both and the round trip. -/

namespace Sys2Proof

/-! ### The fields of a selected word -/

theorem classOf_and (a b : Word) : classOf (a &&& b) = classOf a &&& classOf b := BitVec.extractLsb'_and
theorem nnOf_and (a b : Word) : nnOf (a &&& b) = nnOf a &&& nnOf b := BitVec.extractLsb'_and
theorem nOf_and (a b : Word) : nOf (a &&& b) = nOf a &&& nOf b := BitVec.extractLsb'_and

theorem OpcodeRow.selects_iff {row : OpcodeRow} {w : Word} : row.selects w = true ↔ w &&& row.mask = row.pattern := by
  simp [OpcodeRow.selects]

/-- Every row's mask holds the whole class. -/
theorem classOf_mask : ∀ row ∈ matchedRows ++ fallbackRows, classOf row.mask = BitVec.allOnes 4 := by decide

/-- A selected word agrees with the row's pattern on every field that the mask holds whole. -/
theorem OpcodeRow.field_eq_of_selects {row : OpcodeRow} {w : Word} {n : Nat} {field : Word → BitVec n}
    (hand : ∀ a b, field (a &&& b) = field a &&& field b) (hmask : field row.mask = BitVec.allOnes n)
    (h : row.selects w = true) : field w = field row.pattern := by
  rw [← OpcodeRow.selects_iff.1 h, hand, hmask, BitVec.and_allOnes]

/-! ### The sub-keys of the matched rows (R63) -/

theorem matchedRows_class0 : ∀ row ∈ matchedRows, classOf row.pattern = 0x0#4 →
    nnOf row.mask = BitVec.allOnes 8 ∧ nnOf row.pattern ∈ matchedNn0 := by decide

theorem matchedRows_class8 : ∀ row ∈ matchedRows, classOf row.pattern = 0x8#4 →
    nOf row.mask = BitVec.allOnes 4 ∧ nOf row.pattern ∈ matchedN8 := by decide

theorem matchedRows_classE : ∀ row ∈ matchedRows, classOf row.pattern = 0xE#4 →
    nnOf row.mask = BitVec.allOnes 8 ∧ nnOf row.pattern ∈ matchedNnE := by decide

theorem matchedRows_classF : ∀ row ∈ matchedRows, classOf row.pattern = 0xF#4 →
    nnOf row.mask = BitVec.allOnes 8 ∧ nnOf row.pattern ∈ matchedNnF := by decide

/-- A word whose class has its matched rows keyed by a field, and which has none of those keys, has no matched row. -/
theorem no_matchedRow_of_key {n : Nat} {field : Word → BitVec n} {w : Word} {c : Digit} {keys : List (BitVec n)}
    (hand : ∀ a b, field (a &&& b) = field a &&& field b)
    (hkeys : ∀ row ∈ matchedRows, classOf row.pattern = c →
      field row.mask = BitVec.allOnes n ∧ field row.pattern ∈ keys)
    (hc : classOf w = c) (hw : field w ∉ keys) : ∀ row ∈ matchedRows, row.selects w = false := by
  intro row hrow
  by_contra h
  have hsel : row.selects w = true := by simpa using h
  have hclass := OpcodeRow.field_eq_of_selects classOf_and (classOf_mask row (List.mem_append_left _ hrow)) hsel
  obtain ⟨hmask, hmem⟩ := hkeys row hrow (hclass.symm.trans hc)
  exact hw (OpcodeRow.field_eq_of_selects hand hmask hsel ▸ hmem)

/-! ### The words of a format under the masks of the map -/

theorem wordNNN_and (c c' : Digit) (a a' : Addr12) : wordNNN c a &&& wordNNN c' a' = wordNNN (c &&& c') (a &&& a') :=
  BitVec.and_append

theorem wordXNN_and (c c' x x' : Digit) (nn nn' : Byte) :
    wordXNN c x nn &&& wordXNN c' x' nn' = wordXNN (c &&& c') (x &&& x') (nn &&& nn') := by
  rw [wordXNN, wordXNN, BitVec.and_append, BitVec.and_append, wordXNN]

theorem wordXYN_and (c c' x x' y y' n n' : Digit) :
    wordXYN c x y n &&& wordXYN c' x' y' n' = wordXYN (c &&& c') (x &&& x') (y &&& y') (n &&& n') := by
  rw [wordXYN, wordXYN, BitVec.and_append, BitVec.and_append, BitVec.and_append, wordXYN]

/-- Under the mask of the class every format leaves the class. -/
theorem wordNNN_and_class (c : Digit) (a : Addr12) : wordNNN c a &&& 0xF000#16 = wordNNN c 0#12 :=
  (wordNNN_and c (BitVec.allOnes 4) a 0#12).trans (by rw [BitVec.and_allOnes, BitVec.and_zero])

theorem wordXNN_and_class (c x : Digit) (nn : Byte) : wordXNN c x nn &&& 0xF000#16 = wordNNN c 0#12 :=
  wordNNN_and_class c (x ++ nn)

theorem wordXYN_and_class (c x y n : Digit) : wordXYN c x y n &&& 0xF000#16 = wordNNN c 0#12 :=
  wordNNN_and_class c (x ++ (y ++ n))

theorem wordXNN_and_nn (c x : Digit) (nn : Byte) : wordXNN c x nn &&& 0xF0FF#16 = wordXNN c 0#4 nn :=
  (wordXNN_and c (BitVec.allOnes 4) x 0x0#4 nn (BitVec.allOnes 8)).trans (by
    rw [BitVec.and_allOnes, BitVec.and_allOnes, BitVec.and_zero])

theorem wordXYN_and_n (c x y n : Digit) : wordXYN c x y n &&& 0xF00F#16 = wordXYN c 0#4 0#4 n :=
  (wordXYN_and c (BitVec.allOnes 4) x 0x0#4 y 0x0#4 n (BitVec.allOnes 4)).trans (by
    rw [BitVec.and_allOnes, BitVec.and_allOnes, BitVec.and_zero, BitVec.and_zero])

/-! ### The row of an instruction -/

/-- One of the rows has the instruction's mnemonic, and selects its word. -/
def Instr.hasRowIn (i : Instr) (rows : List OpcodeRow) : Prop :=
  ∃ row ∈ rows, i.mnemonic = row.mnemonic ∧ row.selects (encodeWord i) = true

theorem Instr.hasRowIn.of_and {i : Instr} {rows : List OpcodeRow} (row : OpcodeRow) (hrow : row ∈ rows)
    (hmn : i.mnemonic = row.mnemonic) (hw : encodeWord i &&& row.mask = row.pattern) : i.hasRowIn rows :=
  ⟨row, hrow, hmn, OpcodeRow.selects_iff.2 hw⟩

/-- Every instruction has a matched row, or it has a fallback row and, well formed, no matched row's pattern. -/
theorem Instr.hasRowIn_matched_or_fallback (i : Instr) : i.hasRowIn matchedRows ∨
    (i.hasRowIn fallbackRows ∧
      (i.wellFormed = true → ∀ row ∈ matchedRows, row.selects (encodeWord i) = false)) := by
  cases i with
  | cls d => exact .inl (.of_and ⟨"CLS", 0xF0FF#16, 0x00E0#16⟩ (by decide) rfl (wordXNN_and_nn _ d _))
  | ret d => exact .inl (.of_and ⟨"RET", 0xF0FF#16, 0x00EE#16⟩ (by decide) rfl (wordXNN_and_nn _ d _))
  | sys nnn =>
    exact .inr ⟨.of_and ⟨"SYS", 0xF000#16, 0x0000#16⟩ (by decide) rfl (wordNNN_and_class _ nnn),
      fun h => no_matchedRow_of_key nnOf_and matchedRows_class0 (classOf_wordNNN _ _)
        (by simpa [encodeWord] using (Machine.wellFormed_sys_iff nnn).1 h)⟩
  | jp nnn => exact .inl (.of_and ⟨"JP", 0xF000#16, 0x1000#16⟩ (by decide) rfl (wordNNN_and_class _ nnn))
  | call nnn => exact .inl (.of_and ⟨"CALL", 0xF000#16, 0x2000#16⟩ (by decide) rfl (wordNNN_and_class _ nnn))
  | se x nn => exact .inl (.of_and ⟨"SE", 0xF000#16, 0x3000#16⟩ (by decide) rfl (wordXNN_and_class _ x nn))
  | sne x nn => exact .inl (.of_and ⟨"SNE", 0xF000#16, 0x4000#16⟩ (by decide) rfl (wordXNN_and_class _ x nn))
  | ser x y d => exact .inl (.of_and ⟨"SER", 0xF000#16, 0x5000#16⟩ (by decide) rfl (wordXYN_and_class _ x y d))
  | ld x nn => exact .inl (.of_and ⟨"LD", 0xF000#16, 0x6000#16⟩ (by decide) rfl (wordXNN_and_class _ x nn))
  | add x nn => exact .inl (.of_and ⟨"ADD", 0xF000#16, 0x7000#16⟩ (by decide) rfl (wordXNN_and_class _ x nn))
  | mov x y => exact .inl (.of_and ⟨"MOV", 0xF00F#16, 0x8000#16⟩ (by decide) rfl (wordXYN_and_n _ x y _))
  | or x y => exact .inl (.of_and ⟨"OR", 0xF00F#16, 0x8001#16⟩ (by decide) rfl (wordXYN_and_n _ x y _))
  | and x y => exact .inl (.of_and ⟨"AND", 0xF00F#16, 0x8002#16⟩ (by decide) rfl (wordXYN_and_n _ x y _))
  | xor x y => exact .inl (.of_and ⟨"XOR", 0xF00F#16, 0x8003#16⟩ (by decide) rfl (wordXYN_and_n _ x y _))
  | addr x y => exact .inl (.of_and ⟨"ADDR", 0xF00F#16, 0x8004#16⟩ (by decide) rfl (wordXYN_and_n _ x y _))
  | sub x y => exact .inl (.of_and ⟨"SUB", 0xF00F#16, 0x8005#16⟩ (by decide) rfl (wordXYN_and_n _ x y _))
  | shr x y => exact .inl (.of_and ⟨"SHR", 0xF00F#16, 0x8006#16⟩ (by decide) rfl (wordXYN_and_n _ x y _))
  | subn x y => exact .inl (.of_and ⟨"SUBN", 0xF00F#16, 0x8007#16⟩ (by decide) rfl (wordXYN_and_n _ x y _))
  | shl x y => exact .inl (.of_and ⟨"SHL", 0xF00F#16, 0x800E#16⟩ (by decide) rfl (wordXYN_and_n _ x y _))
  | nop8 x y n =>
    exact .inr ⟨.of_and ⟨"NOP8", 0xF000#16, 0x8000#16⟩ (by decide) rfl (wordXYN_and_class _ x y n),
      fun h => no_matchedRow_of_key nOf_and matchedRows_class8 (classOf_wordXYN _ _ _ _)
        (by simpa [encodeWord] using (Machine.wellFormed_nop8_iff x y n).1 h)⟩
  | sner x y d => exact .inl (.of_and ⟨"SNER", 0xF000#16, 0x9000#16⟩ (by decide) rfl (wordXYN_and_class _ x y d))
  | ldi nnn => exact .inl (.of_and ⟨"LDI", 0xF000#16, 0xA000#16⟩ (by decide) rfl (wordNNN_and_class _ nnn))
  | jpv nnn => exact .inl (.of_and ⟨"JPV", 0xF000#16, 0xB000#16⟩ (by decide) rfl (wordNNN_and_class _ nnn))
  | rnd x nn => exact .inl (.of_and ⟨"RND", 0xF000#16, 0xC000#16⟩ (by decide) rfl (wordXNN_and_class _ x nn))
  | drw x y n => exact .inl (.of_and ⟨"DRW", 0xF000#16, 0xD000#16⟩ (by decide) rfl (wordXYN_and_class _ x y n))
  | skp x => exact .inl (.of_and ⟨"SKP", 0xF0FF#16, 0xE09E#16⟩ (by decide) rfl (wordXNN_and_nn _ x _))
  | sknp x => exact .inl (.of_and ⟨"SKNP", 0xF0FF#16, 0xE0A1#16⟩ (by decide) rfl (wordXNN_and_nn _ x _))
  | nope x nn =>
    exact .inr ⟨.of_and ⟨"NOPE", 0xF000#16, 0xE000#16⟩ (by decide) rfl (wordXNN_and_class _ x nn),
      fun h => no_matchedRow_of_key nnOf_and matchedRows_classE (classOf_wordXNN _ _ _)
        (by simpa [encodeWord] using (Machine.wellFormed_nope_iff x nn).1 h)⟩
  | ldvdt x => exact .inl (.of_and ⟨"LDVDT", 0xF0FF#16, 0xF007#16⟩ (by decide) rfl (wordXNN_and_nn _ x _))
  | ldk x => exact .inl (.of_and ⟨"LDK", 0xF0FF#16, 0xF00A#16⟩ (by decide) rfl (wordXNN_and_nn _ x _))
  | lddt x => exact .inl (.of_and ⟨"LDDT", 0xF0FF#16, 0xF015#16⟩ (by decide) rfl (wordXNN_and_nn _ x _))
  | ldst x => exact .inl (.of_and ⟨"LDST", 0xF0FF#16, 0xF018#16⟩ (by decide) rfl (wordXNN_and_nn _ x _))
  | addi x => exact .inl (.of_and ⟨"ADDI", 0xF0FF#16, 0xF01E#16⟩ (by decide) rfl (wordXNN_and_nn _ x _))
  | ldf x => exact .inl (.of_and ⟨"LDF", 0xF0FF#16, 0xF029#16⟩ (by decide) rfl (wordXNN_and_nn _ x _))
  | bcd x => exact .inl (.of_and ⟨"BCD", 0xF0FF#16, 0xF033#16⟩ (by decide) rfl (wordXNN_and_nn _ x _))
  | stm x => exact .inl (.of_and ⟨"STM", 0xF0FF#16, 0xF055#16⟩ (by decide) rfl (wordXNN_and_nn _ x _))
  | ldm x => exact .inl (.of_and ⟨"LDM", 0xF0FF#16, 0xF065#16⟩ (by decide) rfl (wordXNN_and_nn _ x _))
  | nopf x nn =>
    exact .inr ⟨.of_and ⟨"NOPF", 0xF000#16, 0xF000#16⟩ (by decide) rfl (wordXNN_and_class _ x nn),
      fun h => no_matchedRow_of_key nnOf_and matchedRows_classF (classOf_wordXNN _ _ _)
        (by simpa [encodeWord] using (Machine.wellFormed_nopf_iff x nn).1 h)⟩

/-! ### No two rows share a mnemonic or a word -/

theorem mnemonics_nodup : ((matchedRows ++ fallbackRows).map OpcodeRow.mnemonic).Nodup := by decide

theorem OpcodeRow.eq_of_mnemonic_eq {r q : OpcodeRow} (hr : r ∈ matchedRows ++ fallbackRows)
    (hq : q ∈ matchedRows ++ fallbackRows) (h : r.mnemonic = q.mnemonic) : r = q :=
  List.inj_on_of_nodup_map mnemonics_nodup hr hq h

theorem OpcodeRow.patterns_agree_of_selects {r q : OpcodeRow} {w : Word} (hr : r.selects w = true)
    (hq : q.selects w = true) : r.pattern &&& q.mask = q.pattern &&& r.mask := by
  rw [← OpcodeRow.selects_iff.1 hr, ← OpcodeRow.selects_iff.1 hq, BitVec.and_assoc, BitVec.and_assoc,
    BitVec.and_comm r.mask]

theorem matchedRows_disjoint : ∀ r ∈ matchedRows, ∀ q ∈ matchedRows,
    r.pattern &&& q.mask = q.pattern &&& r.mask → r = q := by decide

theorem fallbackRows_disjoint : ∀ r ∈ fallbackRows, ∀ q ∈ fallbackRows,
    r.pattern &&& q.mask = q.pattern &&& r.mask → r = q := by decide

/-! ### The obligation -/

theorem mnemonic_eq_iff_of_matched {i : Instr} (hi : i.wellFormed = true) {row : OpcodeRow}
    (hrow : row ∈ matchedRows) :
    i.mnemonic = row.mnemonic ↔ row.selects (encodeWord i) = true := by
  have hrow' := List.mem_append_left fallbackRows hrow
  rcases i.hasRowIn_matched_or_fallback with ⟨own, hown, hmn, hsel⟩ | ⟨⟨own, hown, hmn, hsel⟩, hno⟩
  · refine ⟨fun h => ?_, fun h => ?_⟩
    · rwa [← OpcodeRow.eq_of_mnemonic_eq (List.mem_append_left _ hown) hrow' (hmn.symm.trans h)]
    · rwa [← matchedRows_disjoint own hown row hrow (OpcodeRow.patterns_agree_of_selects hsel h)]
  · refine ⟨fun h => ?_, fun h => ?_⟩
    · rwa [← OpcodeRow.eq_of_mnemonic_eq (List.mem_append_right _ hown) hrow' (hmn.symm.trans h)]
    · exact absurd h (by simp [hno hi row hrow])

theorem mnemonic_eq_iff_of_fallback {i : Instr} (hi : i.wellFormed = true) {row : OpcodeRow}
    (hrow : row ∈ fallbackRows) :
    i.mnemonic = row.mnemonic ↔
      row.selects (encodeWord i) = true ∧ ∀ r ∈ matchedRows, r.selects (encodeWord i) = false := by
  have hrow' := List.mem_append_right matchedRows hrow
  rcases i.hasRowIn_matched_or_fallback with ⟨own, hown, hmn, hsel⟩ | ⟨⟨own, hown, hmn, hsel⟩, hno⟩
  · refine ⟨fun h => ?_, fun ⟨_, h⟩ => ?_⟩
    · have heq := OpcodeRow.eq_of_mnemonic_eq (List.mem_append_left _ hown) hrow' (hmn.symm.trans h)
      exact absurd (heq ▸ hrow) (List.disjoint_of_nodup_append (List.Nodup.of_map _ mnemonics_nodup) hown)
    · exact absurd hsel (by simp [h own hown])
  · refine ⟨fun h => ⟨?_, hno hi⟩, fun ⟨h, _⟩ => ?_⟩
    · rwa [← OpcodeRow.eq_of_mnemonic_eq (List.mem_append_right _ hown) hrow' (hmn.symm.trans h)]
    · rwa [← fallbackRows_disjoint own hown row hrow (OpcodeRow.patterns_agree_of_selects hsel h)]

/-- Settles O50: a word is that of the instruction it decodes to, which has one row, and no two rows share a word. -/
theorem wordsSelectByMaskAndMatch : Obligations.WordsSelectByMaskAndMatch := by
  intro w
  obtain ⟨hwf, hword⟩ := decodeWord_standsFor w
  have hmatched := fun row hrow => mnemonic_eq_iff_of_matched hwf (row := row) hrow
  have hfallback := fun row hrow => mnemonic_eq_iff_of_fallback hwf (row := row) hrow
  rw [hword] at hmatched hfallback
  exact ⟨hmatched, hfallback⟩

end Sys2Proof
end

section
/-! Proofs: a `RET` after a `CALL`, and the jump with a register offset (40_control_flow R82 to R84). First the rule
about frames in a row and what `JPV` answers, then the obligations. -/

namespace Sys2Proof.Machine

/-! ### Frames in a row -/

theorem State.keeps_trans {s t u : State} {p : Part} (hst : s.keeps t p) (htu : t.keeps u p) : s.keeps u p := by
  cases p with
  | mem => exact fun a => (htu a).trans (hst a)
  | stack => exact ⟨htu.1.trans hst.1, htu.2.trans hst.2⟩
  | host =>
    obtain ⟨hi, hs, hd, hl⟩ := hst
    obtain ⟨hi', hs', hd', hl'⟩ := htu
    exact ⟨hi'.trans hi, hs'.trans hs, hd'.trans hd, hl'.trans hl⟩
  | _ => exact Eq.trans htu hst

theorem State.frame_trans {s t u : State} {regs : List Digit} {parts : List Part} (hst : s.frame t regs parts)
    (htu : t.frame u regs parts) : s.frame u regs parts :=
  ⟨fun k hk => (htu.1 k hk).trans (hst.1 k hk), fun p hp => State.keeps_trans (hst.2 p hp) (htu.2 p hp)⟩

/-! ### What the instructions answer -/

/-- A `RET` right after a push below a full stack goes to the address pushed. -/
theorem exec_ret_of_push (d : Digit) {s : State} (p q : Word) (h : s.sp < 15) :
    exec (.ret d) ((s.push p).goTo q) = .next (((s.push p).goTo q).pop.goTo p) := by
  have hlt := s.sp_lt_iff.1 h
  have hk : (s.stackUsed.val : Int) = s.sp + 1 := by unfold State.sp; omega
  have hsp : (s.stackUsed.val : Int) = ((s.push p).goTo q).sp := by rw [State.sp_goTo, State.sp_push_of_lt p h, hk]
  have htop : (s.push p).stack[s.stackUsed.val] = p :=
    (State.stack_push_of_sp_lt p h ⟨s.stackUsed.val, hlt⟩).trans (if_pos hk)
  have hret := exec_ret_of_sp_eq d (k := ⟨s.stackUsed.val, hlt⟩) hsp
  simpa only [State.goTo_stack, htop] using hret

theorem exec_jpv (nnn : Addr12) (s : State) : exec (.jpv nnn) s = .next (s.goTo (s.jpvTarget nnn)) := rfl

/-- The sum of `JPV` never reaches 65536. -/
theorem State.toNat_jpvTarget (s : State) (nnn : Addr12) :
    (s.jpvTarget nnn).toNat = nnn.toNat + (s.jumpOffset nnn).toNat := by
  have hnnn := nnn.isLt
  have hoff := (s.jumpOffset nnn).isLt
  rw [State.jpvTarget, BitVec.toNat_add, toNat_zext16, BitVec.toNat_setWidth_of_le (by decide)]
  omega

theorem State.jumpOffset_legacy {s : State} (h : s.variant = .legacy) (nnn : Addr12) :
    s.jumpOffset nnn = s.reg 0x0#4 := by simp [State.jumpOffset, h]

theorem State.jumpOffset_modern {s : State} (h : s.variant = .modern) (nnn : Addr12) :
    s.jumpOffset nnn = s.reg (nnn.extractLsb' 8 4) := by simp [State.jumpOffset, h]

/-! ### The obligations -/

/-- Settles O4: the entry pushed is the one popped, and the cursor falls back. -/
theorem callThenReturnComesBack : Obligations.CallThenReturnComesBack := by
  intro nnn d s h
  have hsp : ((s.push s.npc).goTo (zext16 nnn)).sp = s.sp + 1 := State.sp_push_of_lt s.npc h
  have hpos : 0 ≤ ((s.push s.npc).goTo (zext16 nnn)).sp := by rw [hsp]; unfold State.sp; omega
  refine ⟨_, _, exec_call nnn s, exec_ret_of_push d s.npc _ h, rfl, ?_, ?_⟩
  · rw [State.sp_goTo, State.sp_pop hpos, hsp, add_sub_cancel_right]
  · exact State.frame_goTo (State.frame_trans (State.frame_goTo (s.frame_push _) _) (State.frame_pop _)) _

/-- Settles O5: `JPV` is one `goTo`, to a sum that 16 bits hold. -/
theorem jumpWithOffsetAddsRegister : Obligations.JumpWithOffsetAddsRegister := by
  intro nnn s
  refine ⟨_, exec_jpv nnn s, fun h => ?_, fun h => ?_, rfl, State.frame_goTo (s.frame_refl _ _) _⟩
  · rw [State.goTo_pc, State.toNat_jpvTarget, State.jumpOffset_legacy h]
  · rw [State.goTo_pc, State.toNat_jpvTarget, State.jumpOffset_modern h]

end Sys2Proof.Machine
end

section
/-! Proofs: the random byte (42_immediate_random R102): what `RND` answers, then the obligation. -/

namespace Sys2Proof.Machine

theorem exec_rnd (x : Digit) (nn : Byte) (s : State) :
    exec (.rnd x nn) s = .next (s.setReg x (s.inputs.rnd &&& nn)).advance := rfl

/-- Settles O8: `RND` is one register write, of the bitwise AND. -/
theorem randomByteIsMasked : Obligations.RandomByteIsMasked := by
  intro x nn s
  refine ⟨_, exec_rnd x nn s, fun i _ => ?_, s.setReg_advance_endsNext_and_frame x _⟩
  rw [State.reg_setReg_advance, BitVec.getLsbD_and]

end Sys2Proof.Machine
end

section
/-! Proofs: the ALU (43_alu R112 to R120). First the rules of a step that writes a result and VF, then the flags as
arithmetic and what the instructions answer, then the obligations. -/

namespace Sys2Proof.Machine

/-! ### A step that writes a result and the flag -/

theorem State.frame_setRegFlag (s : State) (x : Digit) (b f : Byte) : s.frame (s.setRegFlag x b f) [x, vf] [] := by
  refine ⟨fun k hk => ?_, fun p _ => ?_⟩
  · simp only [List.mem_cons, List.not_mem_nil, or_false, not_or] at hk
    rw [State.reg_setRegFlag, if_neg hk.2, if_neg hk.1]
  · cases p <;> simp [State.keeps]

/-- How a step that writes a result and the flag ends: at the next instruction, with no other state touched. -/
theorem State.setRegFlag_advance_endsNext_and_frame (s : State) (x : Digit) (b f : Byte) :
    s.endsNext (s.setRegFlag x b f).advance ∧ s.frame (s.setRegFlag x b f).advance [x, vf] [] :=
  ⟨⟨rfl, rfl⟩, State.frame_goTo (s.frame_setRegFlag x b f) _⟩

theorem State.reg_setRegFlag_advance_vf (s : State) (x : Digit) (b f : Byte) :
    (s.setRegFlag x b f).advance.reg vf = f := by
  simp [State.reg_setRegFlag]

theorem State.reg_setRegFlag_advance_of_ne (s : State) {x : Digit} (b f : Byte) (hx : x ≠ vf) :
    (s.setRegFlag x b f).advance.reg x = b := by
  simp [State.reg_setRegFlag, hx]

/-! ### A step that writes a logic result -/

theorem State.setLogic_legacy {s : State} (h : s.variant = .legacy) (x : Digit) (b : Byte) :
    s.setLogic x b = s.setRegFlag x b 0x00#8 := by simp [State.setLogic, h]

theorem State.setLogic_modern {s : State} (h : s.variant = .modern) (x : Digit) (b : Byte) :
    s.setLogic x b = s.setReg x b := by simp [State.setLogic, h]

/-- The registers a logic result may change are the destination and, in Legacy, VF. -/
theorem State.frame_setLogic (s : State) (x : Digit) (b : Byte) :
    s.frame (s.setLogic x b) (if s.variant = .legacy then [x, vf] else [x]) [] := by
  cases h : s.variant with
  | legacy => rw [State.setLogic_legacy h]; exact s.frame_setRegFlag x b _
  | modern => rw [State.setLogic_modern h]; exact s.frame_setReg x b

theorem State.frame_mono {s t : State} {regs regs' : List Digit} {parts parts' : List Part}
    (h : s.frame t regs parts) (hregs : regs ⊆ regs') (hparts : parts ⊆ parts') : s.frame t regs' parts' :=
  ⟨fun k hk => h.1 k (mt (@hregs k) hk), fun p hp => h.2 p (mt (@hparts p) hp)⟩

/-- What a step leaves that writes a logic result `b` to `V[x]`: the clauses of O10, whatever the operation. -/
theorem State.setLogic_advance_spec (s : State) (x : Digit) (b : Byte) :
    (x ≠ vf ∨ s.variant = .modern → (s.setLogic x b).advance.reg x = b) ∧
    (s.variant = .legacy → (s.setLogic x b).advance.reg vf = 0x00#8) ∧
    (s.variant = .modern → s.frame (s.setLogic x b).advance [x] []) ∧
    s.endsNext (s.setLogic x b).advance ∧ s.frame (s.setLogic x b).advance [x, vf] [] := by
  have hframe := s.frame_setLogic x b
  refine ⟨fun h => ?_, fun h => ?_, fun h => ?_, ⟨by simp, rfl⟩, State.frame_goTo (State.frame_mono hframe ?_ ?_) _⟩
  · rw [State.reg_advance, State.reg_setLogic, if_neg (by rintro ⟨hl, rfl⟩; simp [hl] at h), if_pos rfl]
  · rw [State.reg_advance, State.reg_setLogic, if_pos ⟨h, rfl⟩]
  · rw [h] at hframe
    exact State.frame_goTo hframe _
  · split <;> simp
  · exact List.Subset.refl _

/-! ### The flags and the shifts as arithmetic -/

theorem toNat_carryFlag (a b : Byte) : (carryFlag a b).toNat = if a.toNat + b.toNat > 255 then 1 else 0 := by
  simp [carryFlag, flagByte_toNat]

theorem toNat_noBorrowFlag (a b : Byte) : (noBorrowFlag a b).toNat = if b.toNat ≤ a.toNat then 1 else 0 := by
  simp [noBorrowFlag, flagByte_toNat]

/-- The flag of one bit of a byte is the bit as a number. -/
theorem toNat_flagByte_getLsbD (t : Byte) (k : Nat) : (flagByte (t.getLsbD k)).toNat = t.toNat / 2 ^ k % 2 := by
  rw [flagByte_toNat, BitVec.getLsbD, Nat.testBit_eq_decide_div_mod_eq]
  simp only [decide_eq_true_eq]
  split <;> omega

theorem toNat_bitOutRight (t : Byte) : (bitOutRight t).toNat = t.toNat % 2 := by
  rw [bitOutRight, toNat_flagByte_getLsbD, pow_zero, Nat.div_one]

theorem toNat_bitOutLeft (t : Byte) : (bitOutLeft t).toNat = t.toNat / 128 := by
  have hbit : (bitOutLeft t).toNat = t.toNat / 128 % 2 := toNat_flagByte_getLsbD t 7
  have := t.isLt
  omega

theorem toNat_byte_sub (a b : Byte) : (a - b).toNat = (256 + a.toNat - b.toNat) % 256 := by
  have := b.isLt
  rw [BitVec.toNat_sub]
  omega

theorem toNat_byte_ushiftRight_one (a : Byte) : (a >>> 1).toNat = a.toNat / 2 := by
  rw [BitVec.toNat_ushiftRight, Nat.shiftRight_one]

theorem toNat_byte_shiftLeft_one (a : Byte) : (a <<< 1).toNat = 2 * a.toNat % 256 := by
  rw [BitVec.toNat_shiftLeft, Nat.shiftLeft_eq, pow_one, mul_comm]

/-! ### What the instructions answer -/

theorem exec_or (x y : Digit) (s : State) :
    exec (.or x y) s = .next (s.setLogic x (s.reg x ||| s.reg y)).advance := rfl

theorem exec_and (x y : Digit) (s : State) :
    exec (.and x y) s = .next (s.setLogic x (s.reg x &&& s.reg y)).advance := rfl

theorem exec_xor (x y : Digit) (s : State) :
    exec (.xor x y) s = .next (s.setLogic x (s.reg x ^^^ s.reg y)).advance := rfl

theorem exec_addr (x y : Digit) (s : State) : exec (.addr x y) s =
    .next (s.setRegFlag x (s.reg x + s.reg y) (carryFlag (s.reg x) (s.reg y))).advance := rfl

theorem exec_sub (x y : Digit) (s : State) : exec (.sub x y) s =
    .next (s.setRegFlag x (s.reg x - s.reg y) (noBorrowFlag (s.reg x) (s.reg y))).advance := rfl

theorem exec_subn (x y : Digit) (s : State) : exec (.subn x y) s =
    .next (s.setRegFlag x (s.reg y - s.reg x) (noBorrowFlag (s.reg y) (s.reg x))).advance := rfl

theorem exec_shr (x y : Digit) (s : State) : exec (.shr x y) s =
    .next (s.setRegFlag x (s.shiftOperand x y >>> 1) (bitOutRight (s.shiftOperand x y))).advance := rfl

theorem exec_shl (x y : Digit) (s : State) : exec (.shl x y) s =
    .next (s.setRegFlag x (s.shiftOperand x y <<< 1) (bitOutLeft (s.shiftOperand x y))).advance := rfl

/-- The operand of a shift, given by the variant. -/
theorem State.toNat_shiftOperand {s : State} {x y : Digit} {a : Nat} (hl : s.variant = .legacy → a = (s.reg y).toNat)
    (hm : s.variant = .modern → a = (s.reg x).toNat) : (s.shiftOperand x y).toNat = a := by
  unfold State.shiftOperand
  split
  · next h => exact (hl h).symm
  · next h => exact (hm h).symm

/-! ### The obligations -/

/-- Settles O10: each of the three is one logic result. -/
theorem logicOpsAndVf : Obligations.LogicOpsAndVf := by
  intro x y s p hp
  simp only [List.mem_cons, List.not_mem_nil, or_false] at hp
  obtain rfl | rfl | rfl := hp
  · exact ⟨_, exec_or x y s, s.setLogic_advance_spec x _⟩
  · exact ⟨_, exec_and x y s, s.setLogic_advance_spec x _⟩
  · exact ⟨_, exec_xor x y s, s.setLogic_advance_spec x _⟩

/-- Settles O11: the sum modulo 256, then the carry. -/
theorem addRegistersSetsCarry : Obligations.AddRegistersSetsCarry := by
  intro x y s
  refine ⟨_, exec_addr x y s, fun hx => ?_, ?_, s.setRegFlag_advance_endsNext_and_frame x _ _⟩
  · rw [State.reg_setRegFlag_advance_of_ne s _ _ hx, BitVec.toNat_add]
  · rw [State.reg_setRegFlag_advance_vf, toNat_carryFlag]

/-- Settles O12: the difference modulo 256, then the no-borrow flag, for both orders of the operands. -/
theorem subtractSetsNoBorrow : Obligations.SubtractSetsNoBorrow := by
  intro x y s
  refine ⟨⟨_, exec_sub x y s, fun hx => ?_, ?_, s.setRegFlag_advance_endsNext_and_frame x _ _⟩,
    ⟨_, exec_subn x y s, fun hx => ?_, ?_, s.setRegFlag_advance_endsNext_and_frame x _ _⟩⟩
  · rw [State.reg_setRegFlag_advance_of_ne s _ _ hx, toNat_byte_sub]
  · rw [State.reg_setRegFlag_advance_vf, toNat_noBorrowFlag]
  · rw [State.reg_setRegFlag_advance_of_ne s _ _ hx, toNat_byte_sub]
  · rw [State.reg_setRegFlag_advance_vf, toNat_noBorrowFlag]

/-- Settles O13: the operand of the variant shifted by one, then the bit shifted out. -/
theorem shiftsByOne : Obligations.ShiftsByOne := by
  intro x y s a hl hm
  have ha := State.toNat_shiftOperand hl hm
  refine ⟨⟨_, exec_shr x y s, fun hx => ?_, ?_, s.setRegFlag_advance_endsNext_and_frame x _ _⟩,
    ⟨_, exec_shl x y s, fun hx => ?_, ?_, s.setRegFlag_advance_endsNext_and_frame x _ _⟩⟩
  · rw [State.reg_setRegFlag_advance_of_ne s _ _ hx, toNat_byte_ushiftRight_one, ha]
  · rw [State.reg_setRegFlag_advance_vf, toNat_bitOutRight, ha]
  · rw [State.reg_setRegFlag_advance_of_ne s _ _ hx, toNat_byte_shiftLeft_one, ha]
  · rw [State.reg_setRegFlag_advance_vf, toNat_bitOutLeft, ha]

end Sys2Proof.Machine
end

section
/-! Proofs: the index register and memory transfer (44_index_memory R131 to R136). First what the instructions answer,
inside memory and beyond it, then the rules of a step that writes memory or a block of registers, then the
obligations. -/

namespace Sys2Proof.Machine

/-! ### What the instructions answer -/

theorem exec_addi (x : Digit) (s : State) :
    exec (.addi x) s = .next (s.setIndex (s.index + (s.reg x).setWidth 16)).advance := rfl

theorem exec_ldf (x : Digit) (s : State) :
    exec (.ldf x) s = .next (s.setIndex (glyphAddress (s.reg x))).advance := rfl

theorem exec_bcd (x : Digit) (s : State) : exec (.bcd x) s = execBcd x s := rfl

theorem exec_bcd_of_le (x : Digit) {s : State} (h : s.indexAddr + 2 ≤ 0xFFF) :
    exec (.bcd x) s = .next (s.setMem (s.mem.writeBytes s.indexAddr (bcdDigits (s.reg x)))).advance := by
  rw [exec_bcd, execBcd_eq, Config.memSize, if_pos (by omega)]

theorem exec_bcd_of_gt (x : Digit) {s : State} (h : 0xFFF < s.indexAddr + 2) :
    exec (.bcd x) s = .next (s.takeFault .memRange) := by
  rw [exec_bcd, execBcd_eq, Config.memSize, if_neg (by omega)]

theorem exec_stm (x : Digit) (s : State) : exec (.stm x) s = execStm x s := rfl

theorem exec_stm_of_le {x : Digit} {s : State} (h : s.indexAddr + x.toNat ≤ 0xFFF) :
    exec (.stm x) s =
      .next ((s.setMem (s.mem.writeBytes s.indexAddr (s.regsTo x))).setIndex (s.indexAfterBlock x)).advance := by
  rw [exec_stm, execStm_eq, Config.memSize, if_pos (by omega)]

theorem exec_stm_of_gt {x : Digit} {s : State} (h : 0xFFF < s.indexAddr + x.toNat) :
    exec (.stm x) s = .next (s.takeFault .memRange) := by
  rw [exec_stm, execStm_eq, Config.memSize, if_neg (by omega)]

theorem exec_ldm (x : Digit) (s : State) : exec (.ldm x) s = execLdm x s := rfl

theorem exec_ldm_of_le {x : Digit} {s : State} (h : s.indexAddr + x.toNat ≤ 0xFFF) :
    exec (.ldm x) s =
      .next ((s.setRegs (s.mem.readBytes s.indexAddr (x.toNat + 1))).setIndex (s.indexAfterBlock x)).advance := by
  rw [exec_ldm, execLdm_eq, Config.memSize, if_pos (by omega)]

theorem exec_ldm_of_gt {x : Digit} {s : State} (h : 0xFFF < s.indexAddr + x.toNat) :
    exec (.ldm x) s = .next (s.takeFault .memRange) := by
  rw [exec_ldm, execLdm_eq, Config.memSize, if_neg (by omega)]

/-! ### The index register -/

/-- The largest glyph address, 0x050 + 5 * 255, is far below 65536. -/
theorem toNat_glyphAddress (b : Byte) : (glyphAddress b).toNat = 0x050 + 5 * b.toNat := by
  have := b.isLt
  simp only [glyphAddress, BitVec.toNat_add, BitVec.toNat_mul, BitVec.toNat_setWidth, BitVec.toNat_ofNat]
  omega

theorem State.toNat_indexAfterBlock_legacy {s : State} (h : s.variant = .legacy) (x : Digit) :
    (s.indexAfterBlock x).toNat = (s.index.toNat + (x.toNat + 1)) % 65536 := by
  have := x.isLt
  simp only [State.indexAfterBlock, h, BitVec.toNat_add, BitVec.toNat_setWidth, BitVec.toNat_ofNat]
  omega

theorem State.indexAfterBlock_modern {s : State} (h : s.variant = .modern) (x : Digit) :
    s.indexAfterBlock x = s.index := by simp [State.indexAfterBlock, h]

/-! ### A step that writes memory -/

theorem State.frame_setMem (s : State) (m : Memory) : s.frame (s.setMem m) [] [.mem] := by
  refine ⟨fun k _ => s.reg_setMem k m, fun p hp => ?_⟩
  cases p <;> simp [State.keeps] at hp ⊢

/-- The bytes outside a stored range are unchanged. -/
theorem State.sameBytesOutside_writeBytes {s t : State} {lo : Nat} {bytes : List Byte}
    (h : t.mem = s.mem.writeBytes lo bytes) : s.sameBytesOutside t lo bytes.length := by
  intro a ha
  rw [h, Memory.read_writeBytes_outside _ _ _ ha]

/-- How a step that writes only memory ends: at the next instruction, `NoChange`, with no other state touched. -/
theorem State.setMem_advance_endsNext_and_frame (s : State) (m : Memory) :
    s.endsNext (s.setMem m).advance ∧ s.frame (s.setMem m).advance [] [.mem] :=
  ⟨⟨rfl, rfl⟩, State.frame_goTo (s.frame_setMem m) _⟩

/-- How a step that writes memory and I ends. -/
theorem State.setMem_setIndex_advance_endsNext_and_frame (s : State) (m : Memory) (a : Word) :
    s.endsNext ((s.setMem m).setIndex a).advance ∧ s.frame ((s.setMem m).setIndex a).advance [] [.mem, .index] :=
  ⟨⟨rfl, rfl⟩, State.frame_goTo (State.frame_trans (State.frame_mono (s.frame_setMem m) (by simp) (by simp))
    (State.frame_mono ((s.setMem m).frame_setIndex a) (by simp) (by simp))) _⟩

/-- Byte k of the stored registers is `V[k]`. -/
theorem State.read_writeBytes_regsTo {s : State} (hwf : s.memWf) {x k : Digit} (h : s.indexAddr + x.toNat ≤ 0xFFF)
    (hk : k.toNat ≤ x.toNat) :
    (s.mem.writeBytes s.indexAddr (s.regsTo x)).read (s.indexAddr + k.toNat) = s.reg k := by
  have hlen : k.toNat < (s.regsTo x).length := by rw [State.length_regsTo]; omega
  rw [Memory.read_writeBytes_inside hwf (by rw [State.length_regsTo, Config.memSize]; omega) _ hlen,
    State.getElem_regsTo]

/-- The digit of a byte is a byte. -/
theorem toNat_ofNat_digit {n : Nat} (h : n ≤ 255) : (BitVec.ofNat 8 n).toNat = n := by
  rw [BitVec.toNat_ofNat, Nat.mod_eq_of_lt (by omega)]

/-! ### A step that loads a block of registers -/

/-- Register k of a block read from memory holds byte k. -/
theorem State.reg_setRegs_readBytes_of_le (s : State) {x k : Digit} (hk : k.toNat ≤ x.toNat) :
    (s.setRegs (s.mem.readBytes s.indexAddr (x.toNat + 1))).reg k = s.mem.read (s.indexAddr + k.toNat) := by
  have hlt : k.toNat < (s.mem.readBytes s.indexAddr (x.toNat + 1)).length := by
    rw [Memory.length_readBytes]; omega
  rw [State.reg_setRegs, List.getD_eq_getElem _ _ hlt, Memory.getElem_readBytes]

/-- The registers past the block are unchanged. -/
theorem State.reg_setRegs_readBytes_of_gt (s : State) {x k : Digit} (hk : x.toNat < k.toNat) :
    (s.setRegs (s.mem.readBytes s.indexAddr (x.toNat + 1))).reg k = s.reg k := by
  rw [State.reg_setRegs, List.getD_eq_default _ _ (by rw [Memory.length_readBytes]; omega)]

theorem State.keeps_setRegs_setIndex_advance (s : State) (bytes : List Byte) (a : Word) {p : Part} (hp : p ≠ .index) :
    s.keeps ((s.setRegs bytes).setIndex a).advance p := by
  cases p <;> simp [State.keeps] at hp ⊢

/-! ### The obligations -/

/-- Settles O15: each instruction is one write of I, of a sum modulo 65536 and of a sum that never reaches it. -/
theorem indexAddAndGlyphAddress : Obligations.IndexAddAndGlyphAddress := by
  intro x s
  refine ⟨⟨_, exec_addi x s, ?_, s.setIndex_advance_endsNext_and_frame _⟩,
    ⟨_, exec_ldf x s, toNat_glyphAddress _, s.setIndex_advance_endsNext_and_frame _⟩⟩
  rw [State.advance_index, State.setIndex_index, BitVec.toNat_add, BitVec.toNat_setWidth_of_le (by decide)]

/-- Settles O16: inside memory `BCD` is one write of three bytes, beyond it a taken fault. -/
theorem bcdStoresThreeDigits : Obligations.BcdStoresThreeDigits := by
  intro x s hwf
  refine ⟨fun h => ?_, fun h => ⟨_, exec_bcd_of_gt x h, s.takeFault_faultedOnly _⟩⟩
  have hb := (s.reg x).isLt
  have hread : ∀ (k : Nat) (hk : k < 3),
      (s.mem.writeBytes s.indexAddr (bcdDigits (s.reg x))).read (s.indexAddr + k) = (bcdDigits (s.reg x))[k] :=
    Memory.read_writeBytes_inside (bs := bcdDigits (s.reg x)) hwf (by rw [length_bcdDigits, Config.memSize]; omega)
  refine ⟨_, exec_bcd_of_le x h, ?_, ?_, ?_, State.sameBytesOutside_writeBytes (bytes := bcdDigits (s.reg x)) rfl,
    s.setMem_advance_endsNext_and_frame _⟩
  · exact (congrArg BitVec.toNat (hread 0 (by decide))).trans (toNat_ofNat_digit (by omega))
  · exact (congrArg BitVec.toNat (hread 1 (by decide))).trans (toNat_ofNat_digit (by omega))
  · exact (congrArg BitVec.toNat (hread 2 (by decide))).trans (toNat_ofNat_digit (by omega))

/-- Settles O17: inside memory `STM` is one write of the registers' bytes and one of I, beyond it a taken fault. -/
theorem storeRegistersToMemory : Obligations.StoreRegistersToMemory := by
  intro x s hwf
  refine ⟨fun h => ?_, fun h => ⟨_, exec_stm_of_gt h, s.takeFault_faultedOnly _⟩⟩
  refine ⟨_, exec_stm_of_le h, fun k hk => State.read_writeBytes_regsTo hwf h hk, ?_,
    fun hl => State.toNat_indexAfterBlock_legacy hl x, fun hm => State.indexAfterBlock_modern hm x,
    s.setMem_setIndex_advance_endsNext_and_frame _ _⟩
  rw [← s.length_regsTo x]
  exact State.sameBytesOutside_writeBytes rfl

/-- Settles O18: inside memory `LDM` is one block load and one write of I, beyond it a taken fault. -/
theorem loadRegistersFromMemory : Obligations.LoadRegistersFromMemory := by
  intro x s
  refine ⟨fun h => ?_, fun h => ⟨_, exec_ldm_of_gt h, s.takeFault_faultedOnly _⟩⟩
  refine ⟨_, exec_ldm_of_le h, fun k hk => ?_, fun k hk => ?_, fun hl => State.toNat_indexAfterBlock_legacy hl x,
    fun hm => State.indexAfterBlock_modern hm x, ⟨rfl, rfl⟩, fun p hp => s.keeps_setRegs_setIndex_advance _ _ hp⟩
  · rw [State.reg_advance, State.reg_setIndex, s.reg_setRegs_readBytes_of_le hk]
  · rw [State.reg_advance, State.reg_setIndex, s.reg_setRegs_readBytes_of_gt hk]

/-- Settles O19: `LDM` reads back the bytes that `STM` left. -/
theorem storeThenLoadRestoresRegisters : Obligations.StoreThenLoadRestoresRegisters := by
  intro x s t r hwf h hstm hmem hindex
  have haddr : r.indexAddr = s.indexAddr := congrArg BitVec.toNat hindex
  rw [exec_stm_of_le h] at hstm
  cases hstm
  refine ⟨_, exec_ldm_of_le (haddr ▸ h), fun k hk => ?_⟩
  rw [State.reg_advance, State.reg_setIndex, r.reg_setRegs_readBytes_of_le hk, hmem, haddr]
  exact State.read_writeBytes_regsTo hwf h hk

end Sys2Proof.Machine
end

section
/-! Proofs: drawing a sprite (45_display R141 to R143). First what `DRW` answers inside memory and beyond it, then what
a draw leaves, then the obligations on one draw and on two. -/

namespace Sys2Proof.Machine

/-! ### What the instruction answers -/

theorem exec_drw (x y n : Digit) (s : State) : exec (.drw x y n) s = execDrw x y n s := rfl

theorem exec_drw_of_le {x y n : Digit} {s : State} (h : n.toNat = 0 ∨ s.indexAddr + n.toNat ≤ 4096) :
    exec (.drw x y n) s = .next (s.drawn x y n) := by
  rw [exec_drw, execDrw_eq, Config.memSize, if_pos h]

theorem exec_drw_of_gt {x y n : Digit} {s : State} (h : n.toNat ≠ 0 ∧ 4096 < s.indexAddr + n.toNat) :
    exec (.drw x y n) s = .next (s.takeFault .memRange) := by
  rw [exec_drw, execDrw_eq, Config.memSize, if_neg (by omega)]

theorem State.frame_drawn (s : State) (x y n : Digit) : s.frame (s.drawn x y n) [vf] [.disp] :=
  State.frame_signalRedraw (State.frame_goTo (State.frame_trans
    (State.frame_mono (s.frame_setDisp _) (by simp) (by simp))
    (State.frame_mono (State.frame_setReg _ vf _) (by simp) (by simp))) _)

theorem State.reg_drawn_vf (s : State) (x y n : Digit) : (s.drawn x y n).reg vf =
    flagByte (collides s.disp (s.mem.readBytes s.indexAddr n.toNat) (s.anchorCol x) (s.anchorRow y)) := by
  rw [State.reg_drawn, if_pos rfl]

theorem State.reg_drawn_of_ne (s : State) (x y n : Digit) {k : Digit} (hk : k ≠ vf) :
    (s.drawn x y n).reg k = s.reg k := by
  rw [State.reg_drawn, if_neg hk]

/-- VF is 1 after a draw iff some displayed pixel was lit where the sprite has a bit. -/
theorem State.reg_drawn_vf_eq_one_iff (s : State) (x y n : Digit) : (s.drawn x y n).reg vf = 0x01#8 ↔
    ∃ r c, r < 32 ∧ c < 64 ∧ s.pixel r c = true ∧
      s.spriteBit s.indexAddr n.toNat (s.anchorCol x) (s.anchorRow y) r c = true := by
  rw [State.reg_drawn_vf, flagByte_eq_one, collides_iff]

theorem State.reg_drawn_vf_eq_zero_iff (s : State) (x y n : Digit) : (s.drawn x y n).reg vf = 0x00#8 ↔
    ¬ ∃ r c, r < 32 ∧ c < 64 ∧ s.pixel r c = true ∧
      s.spriteBit s.indexAddr n.toNat (s.anchorCol x) (s.anchorRow y) r c = true := by
  rw [State.reg_drawn_vf, flagByte_eq_zero, ← collides_iff, Bool.not_eq_true]

theorem State.pc_drawn (s : State) (x y n : Digit) : (s.drawn x y n).pc = s.pc + 2#16 := by simp [State.drawn]

theorem State.redraw_drawn (s : State) (x y n : Digit) : (s.drawn x y n).redraw = .redrawNeeded := by
  simp [State.drawn]

theorem State.mem_drawn (s : State) (x y n : Digit) : (s.drawn x y n).mem = s.mem := by simp [State.drawn]

theorem State.indexAddr_drawn (s : State) (x y n : Digit) : (s.drawn x y n).indexAddr = s.indexAddr := by
  simp [State.drawn, State.indexAddr]

/-- A sprite's bits depend on memory only. -/
theorem State.spriteBit_of_mem_eq {s t : State} (h : t.mem = s.mem) : t.spriteBit = s.spriteBit := by
  unfold State.spriteBit
  rw [h]

/-- A second draw of the same sprite at the same place sees the same sprite bits. -/
theorem State.spriteBit_drawn (s : State) (x y n : Digit) {x' y' : Digit} (hx : x' ≠ vf) (hy : y' ≠ vf) (r c : Nat) :
    (s.drawn x y n).spriteBit (s.drawn x y n).indexAddr n.toNat ((s.drawn x y n).anchorCol x')
      ((s.drawn x y n).anchorRow y') r c =
    s.spriteBit s.indexAddr n.toNat (s.anchorCol x') (s.anchorRow y') r c := by
  rw [State.spriteBit_of_mem_eq (s.mem_drawn x y n), State.indexAddr_drawn, State.anchorCol, State.anchorRow,
    s.reg_drawn_of_ne x y n hx, s.reg_drawn_of_ne x y n hy, State.anchorCol, State.anchorRow]

/-! ### The obligations -/

/-- Settles O21: by the blit and the collision detector, pixel by pixel; beyond memory a taken fault. -/
theorem drawXorsTheSprite : Obligations.DrawXorsTheSprite := by
  intro x y n s px py hpx hpy
  obtain rfl : px = s.anchorCol x := hpx
  obtain rfl : py = s.anchorRow y := hpy
  refine ⟨fun h => ?_, fun h => ⟨_, exec_drw_of_gt h, s.takeFault_faultedOnly _⟩⟩
  exact ⟨_, exec_drw_of_le h, fun r c hr hc => s.pixel_drawn x y n r c hr hc, (s.reg_drawn_vf_eq_one_iff x y n).2,
    (s.reg_drawn_vf_eq_zero_iff x y n).2, s.pc_drawn x y n, s.redraw_drawn x y n, s.frame_drawn x y n⟩

/-- Settles O22: the second draw XORs the same bits again, and meets a lit pixel exactly where the first one lit it. -/
theorem drawTwiceRestoresDisplay : Obligations.DrawTwiceRestoresDisplay := by
  intro x y n s hx hy h
  refine ⟨_, _, exec_drw_of_le h, exec_drw_of_le ((s.indexAddr_drawn x y n).symm ▸ h), fun r c hr hc => ?_, ?_⟩
  · rw [State.pixel_drawn _ x y n r c hr hc, State.spriteBit_drawn s x y n hx hy, State.pixel_drawn s x y n r c hr hc,
      Bool.xor_assoc, Bool.xor_self, Bool.xor_false]
  · rw [State.reg_drawn_vf_eq_one_iff]
    refine exists_congr fun r => exists_congr fun c => and_congr_right fun hr => and_congr_right fun hc => ?_
    rw [State.spriteBit_drawn s x y n hx hy, State.pixel_drawn s x y n r c hr hc]
    refine and_congr_left fun hbit => ?_
    rw [hbit, Bool.xor_true, Bool.not_eq_true']

end Sys2Proof.Machine
end

section
/-! Proofs: the skips on a key (46_keypad_timers R150, R151, R156): when a key is held and what the two instructions
answer, then the obligation. -/

namespace Sys2Proof.Machine

theorem State.keyHeld_iff (s : State) (b : Byte) :
    s.keyHeld b = true ↔ ∃ k : Nat, k ≤ 15 ∧ b.toNat = k ∧ s.inputs.keys.getLsbD k = true := by
  simp [State.keyHeld]

theorem exec_skp (x : Digit) (s : State) : exec (.skp x) s = .next (s.skipIf (s.keyHeld (s.reg x))) := rfl

theorem exec_sknp (x : Digit) (s : State) : exec (.sknp x) s = .next (s.skipIf (!s.keyHeld (s.reg x))) := rfl

/-- Settles O23: each instruction is one `skipIf`, on the key's state and on its negation. -/
theorem keySkips : Obligations.KeySkips := by
  intro x s
  refine ⟨⟨_, exec_skp x s, s.endsSkip_skipIf (s.keyHeld_iff _)⟩, ⟨_, exec_sknp x s, s.endsSkip_skipIf ?_⟩⟩
  rw [← s.keyHeld_iff, Bool.not_eq_true', Bool.not_eq_true]

end Sys2Proof.Machine
end

section
/-! Proofs: what every instruction keeps (10_state sections 1 to 7, 60_exceptions R170 to R174). First the rules of the
frames still missing, then the frame of every instruction, then how an instruction can end. -/

namespace Sys2Proof.Machine

/-! ### Frames -/

theorem State.frame_takeFault (s : State) (code : FaultLatch) : s.frame (s.takeFault code) [] [.fault] := by
  refine ⟨fun k _ => s.reg_takeFault k code, fun p hp => ?_⟩
  cases p <;> simp [State.keeps] at hp ⊢

/-- A block load writes the registers from `V[0]` to `V[x]`. -/
theorem State.frame_setRegs_readBytes (s : State) (x : Digit) :
    s.frame (s.setRegs (s.mem.readBytes s.indexAddr (x.toNat + 1)))
      ((List.range (x.toNat + 1)).map (BitVec.ofNat 4)) [] := by
  refine ⟨fun k hk => s.reg_setRegs_readBytes_of_gt ?_, fun p _ => ?_⟩
  · by_contra hle
    exact hk (List.mem_map.2 ⟨k.toNat, List.mem_range.2 (by omega), by simp⟩)
  · cases p <;> simp [State.keeps]

/-- The block transfers write I in Legacy only. -/
theorem State.frame_setIndex_indexAfterBlock {s t : State} {regs : List Digit} {parts : List Part}
    (h : s.frame t regs parts) (hindex : t.index = s.index) (x : Digit) :
    s.frame (t.setIndex (s.indexAfterBlock x)) regs (if s.variant = .legacy then parts ++ [.index] else parts) := by
  cases hv : s.variant with
  | legacy =>
    exact State.frame_trans (State.frame_mono h (List.Subset.refl _) (by simp))
      (State.frame_mono (t.frame_setIndex _) (by simp) (by simp))
  | modern => rwa [State.indexAfterBlock_modern hv, ← hindex]

/-! ### What the branching instructions answer -/

/-- `LDK` is a register write or stays. -/
theorem exec_ldk_cases {x : Digit} {s t : State} (h : exec (.ldk x) s = .next t) :
    (∃ b, t = (s.setReg x b).advance) ∨ t = s.goTo s.pc := by
  cases hkey : s.inputs.lastKey with
  | some k => rw [exec_ldk_of_press x hkey] at h; cases h; exact .inl ⟨_, rfl⟩
  | none => rw [exec_ldk_of_no_press x hkey] at h; cases h; exact .inr rfl

/-- `RET` falls through or goes to an entry of the stack. -/
theorem exec_ret_cases {d : Digit} {s t : State} (h : exec (.ret d) s = .next t) :
    t = s.advance ∨ ∃ k : Fin 16, t = s.pop.goTo s.stack[k.val] := by
  rcases s.sp_cases with hempty | ⟨k, hk⟩
  · rw [exec_ret_of_empty d hempty] at h; cases h; exact .inl rfl
  · rw [exec_ret_of_sp_eq d hk] at h; cases h; exact .inr ⟨k, rfl⟩

theorem exec_drw_cases {x y n : Digit} {s t : State} (h : exec (.drw x y n) s = .next t) :
    t = s.drawn x y n ∨ t = s.takeFault .memRange := by
  rw [exec_drw, execDrw_eq] at h
  cases h
  exact ite_eq_or_eq _ _ _

theorem exec_bcd_cases {x : Digit} {s t : State} (h : exec (.bcd x) s = .next t) :
    (s.indexAddr + 3 ≤ Config.memSize ∧
      t = (s.setMem (s.mem.writeBytes s.indexAddr (bcdDigits (s.reg x)))).advance) ∨ t = s.takeFault .memRange := by
  rw [exec_bcd, execBcd_eq] at h
  cases h
  split
  · next hle => exact .inl ⟨hle, rfl⟩
  · exact .inr rfl

theorem exec_stm_cases {x : Digit} {s t : State} (h : exec (.stm x) s = .next t) :
    (s.indexAddr + (x.toNat + 1) ≤ Config.memSize ∧
      t = ((s.setMem (s.mem.writeBytes s.indexAddr (s.regsTo x))).setIndex (s.indexAfterBlock x)).advance) ∨
    t = s.takeFault .memRange := by
  rw [exec_stm, execStm_eq] at h
  cases h
  split
  · next hle => exact .inl ⟨hle, rfl⟩
  · exact .inr rfl

theorem exec_ldm_cases {x : Digit} {s t : State} (h : exec (.ldm x) s = .next t) :
    t = ((s.setRegs (s.mem.readBytes s.indexAddr (x.toNat + 1))).setIndex (s.indexAfterBlock x)).advance ∨
    t = s.takeFault .memRange := by
  rw [exec_ldm, execLdm_eq] at h
  cases h
  exact ite_eq_or_eq _ _ _

/-- Every instruction answers a next state: by definition, but for the five whose meaning is a case split. -/
theorem exec_goes_on (i : Instr) (s : State) : ∃ t, exec i s = .next t := by
  cases i with
  | ret d => exact ⟨_, execRet_eq d s⟩
  | drw x y n => exact ⟨_, execDrw_eq x y n s⟩
  | bcd x => exact ⟨_, execBcd_eq x s⟩
  | stm x => exact ⟨_, execStm_eq x s⟩
  | ldm x => exact ⟨_, execLdm_eq x s⟩
  | _ => exact ⟨_, rfl⟩

/-! ### The frame of every instruction -/

/-- Settles O28: by what the instruction writes: nothing, one register, a result and VF, a logic result, I, a timer, the
display, the stack, or a block of memory or registers. -/
theorem everyInstructionKeepsItsFrame : Obligations.EveryInstructionKeepsItsFrame := by
  intro i s t h
  cases i with
  | sys _ | jp _ | se _ _ | sne _ _ | ser _ _ _ | nop8 _ _ _ | sner _ _ _ | jpv _ | skp _ | sknp _
  | nope _ _ | nopf _ _ =>
    cases h
    exact State.frame_goTo (s.frame_refl _ _) _
  | ld x _ | add x _ | mov x _ | rnd x _ | ldvdt x =>
    cases h
    exact State.frame_goTo (s.frame_setReg x _) _
  | addr x _ | sub x _ | shr x _ | subn x _ | shl x _ =>
    cases h
    exact State.frame_goTo (s.frame_setRegFlag x _ _) _
  | or x _ | and x _ | xor x _ =>
    cases h
    exact State.frame_goTo (s.frame_setLogic x _) _
  | ldi _ | addi _ | ldf _ =>
    cases h
    exact State.frame_goTo (s.frame_setIndex _) _
  | lddt x => cases h; exact State.frame_goTo (s.frame_setDt _) _
  | ldst x => cases h; exact State.frame_goTo (s.frame_setSt _) _
  | cls d => cases h; exact State.frame_signalRedraw (State.frame_goTo (s.frame_setDisp _) _)
  | call nnn => cases h; exact State.frame_goTo (s.frame_push _) _
  | ret d =>
    obtain rfl | ⟨k, rfl⟩ := exec_ret_cases h
    · exact State.frame_goTo (s.frame_refl _ _) _
    · exact State.frame_goTo s.frame_pop _
  | ldk x =>
    obtain ⟨b, rfl⟩ | rfl := exec_ldk_cases h
    · exact State.frame_goTo (s.frame_setReg x b) _
    · exact State.frame_goTo (s.frame_refl _ _) _
  | drw x y n =>
    obtain rfl | rfl := exec_drw_cases h
    · exact State.frame_mono (s.frame_drawn x y n) (List.Subset.refl _) (by simp [partsWritten])
    · exact State.frame_mono (s.frame_takeFault _) (List.nil_subset _) (by simp [partsWritten])
  | bcd x =>
    obtain ⟨-, rfl⟩ | rfl := exec_bcd_cases h
    · exact State.frame_goTo (State.frame_mono (s.frame_setMem _) (List.Subset.refl _) (by simp [partsWritten])) _
    · exact State.frame_mono (s.frame_takeFault _) (List.nil_subset _) (by simp [partsWritten])
  | stm x =>
    obtain ⟨-, rfl⟩ | rfl := exec_stm_cases h
    · have hmem := State.frame_mono (parts' := [.mem, .fault]) (s.frame_setMem
        (s.mem.writeBytes s.indexAddr (s.regsTo x))) (List.Subset.refl _) (by simp)
      exact State.frame_goTo (State.frame_setIndex_indexAfterBlock hmem rfl x) _
    · exact State.frame_mono (s.frame_takeFault _) (List.nil_subset _) (by simp [partsWritten]; split <;> simp)
  | ldm x =>
    obtain rfl | rfl := exec_ldm_cases h
    · have hregs := State.frame_mono (parts' := [.fault]) (s.frame_setRegs_readBytes x)
        (List.Subset.refl _) (List.nil_subset _)
      exact State.frame_goTo (State.frame_setIndex_indexAfterBlock hregs rfl x) _
    · exact State.frame_mono (s.frame_takeFault _) (List.nil_subset _) (by simp [partsWritten]; split <;> simp)

/-! ### How an instruction can end -/

/-- An instruction takes `MemRange`, if it is one of four, or leaves the latch alone and asks for a redraw iff it is
`CLS` or `DRW`. -/
theorem exec_faults_or_completes {i : Instr} {s t : State} (h : exec i s = .next t) :
    (i.mnemonic ∈ ["DRW", "BCD", "STM", "LDM"] ∧ t = s.takeFault .memRange) ∨
    (t.fault = s.fault ∧ (t.redraw = .redrawNeeded ↔ i.mnemonic ∈ ["CLS", "DRW"])) := by
  cases i with
  | cls d => cases h; exact .inr ⟨rfl, by simp [Instr.mnemonic]⟩
  | call nnn => cases h; exact .inr ⟨s.push_fault _, by simp [Instr.mnemonic]⟩
  | or x _ | and x _ | xor x _ => cases h; exact .inr ⟨s.setLogic_fault x _, by simp [Instr.mnemonic]⟩
  | ret d => obtain rfl | ⟨k, rfl⟩ := exec_ret_cases h <;> exact .inr ⟨rfl, by simp [Instr.mnemonic]⟩
  | ldk x => obtain ⟨b, rfl⟩ | rfl := exec_ldk_cases h <;> exact .inr ⟨rfl, by simp [Instr.mnemonic]⟩
  | drw x y n =>
    obtain rfl | rfl := exec_drw_cases h
    · exact .inr ⟨by simp [State.drawn], by simp [Instr.mnemonic, State.redraw_drawn]⟩
    · exact .inl ⟨by simp [Instr.mnemonic], rfl⟩
  | bcd x =>
    obtain ⟨-, rfl⟩ | rfl := exec_bcd_cases h
    · exact .inr ⟨rfl, by simp [Instr.mnemonic]⟩
    · exact .inl ⟨by simp [Instr.mnemonic], rfl⟩
  | stm x =>
    obtain ⟨-, rfl⟩ | rfl := exec_stm_cases h
    · exact .inr ⟨rfl, by simp [Instr.mnemonic]⟩
    · exact .inl ⟨by simp [Instr.mnemonic], rfl⟩
  | ldm x =>
    obtain rfl | rfl := exec_ldm_cases h
    · exact .inr ⟨rfl, by simp [Instr.mnemonic]⟩
    · exact .inl ⟨by simp [Instr.mnemonic], rfl⟩
  | _ => cases h; exact .inr ⟨rfl, by simp [Instr.mnemonic]⟩

/-- Settles O30: an instruction that completes leaves the latch alone. -/
theorem onlyFourInstructionsFaultPrecisely : Obligations.OnlyFourInstructionsFaultPrecisely := by
  intro i s t h hfault
  obtain ⟨hi, rfl⟩ | ⟨hsame, -⟩ := exec_faults_or_completes h
  · exact ⟨hi, s.takeFault_faultedOnly .memRange⟩
  · exact absurd hsame hfault

/-- Settles O31: a taken fault outputs `NoChange` and latches a code; what completes stays running. -/
theorem redrawExactlyForDisplayInstructions : Obligations.RedrawExactlyForDisplayInstructions := by
  intro i s t hrun h
  obtain ⟨-, rfl⟩ | ⟨hsame, hredraw⟩ := exec_faults_or_completes h
  · simp
  · rw [hredraw, hsame, hrun, and_iff_left rfl]

end Sys2Proof.Machine
end

section
/-! Proofs: what no instruction reads but the few named for it: the variant (10_state R22), the inputs (60_exceptions
R183) and the display (45_display R143). A change `f` of such a piece is carried through an instruction: executing after
the change is changing after the execution. First when a meaning that branches carries a change through, whatever the
change; then each of the three changes. -/

namespace Sys2Proof.Machine

/-! ### A change carried through a meaning that branches -/

section
variable (f : State → State) (s : State)

/-- A meaning that splits on a condition carries `f` through if `f` leaves the condition alone and both outcomes do. -/
theorem exec_carries_of_ite (i : Instr) {c : State → Prop} [∀ u, Decidable (c u)] {a b : State → State}
    (hexec : ∀ u, exec i u = .next (if c u then a u else b u)) (hc : c (f s) ↔ c s) (ha : a (f s) = f (a s))
    (hb : b (f s) = f (b s)) : exec i (f s) = onNext f (exec i s) := by
  rw [hexec, hexec, onNext, ha, hb, apply_ite f]
  simp only [hc]

theorem exec_call_carries (nnn : Addr12) (hused : (f s).stackUsed = s.stackUsed) (hstack : (f s).stack = s.stack)
    (hnpc : (f s).npc = s.npc) (hgo : ∀ u, (f u).goTo (zext16 nnn) = f (u.goTo (zext16 nnn)))
    (hpush : ∀ stack used, { f s with stack := stack, stackUsed := used } =
      f { s with stack := stack, stackUsed := used }) :
    exec (.call nnn) (f s) = onNext f (exec (.call nnn) s) := by
  have hcarry : (f s).push s.npc = f (s.push s.npc) := by
    by_cases h : s.stackUsed.val < 16
    · simp only [State.push, hused, hstack, h, dif_pos, hpush]
    · simp only [State.push, hused, h, dif_neg, not_false_eq_true]
  rw [exec_call, exec_call, hnpc, hcarry, hgo, onNext]

theorem exec_ret_carries (d : Digit) (htop : (f s).top = s.top) (hnone : (f s).advance = f s.advance)
    (hsome : ∀ p, (f s).pop.goTo p = f (s.pop.goTo p)) :
    exec (.ret d) (f s) = onNext f (exec (.ret d) s) := by
  rw [exec_ret, exec_ret, execRet, execRet, htop]
  cases s.top with
  | none => exact congrArg _ hnone
  | some p => exact congrArg _ (hsome p)

theorem exec_ldk_carries (x : Digit) (hkey : (f s).inputs.lastKey = s.inputs.lastKey)
    (hnone : (f s).goTo (f s).pc = f (s.goTo s.pc))
    (hsome : ∀ b, ((f s).setReg x b).advance = f (s.setReg x b).advance) :
    exec (.ldk x) (f s) = onNext f (exec (.ldk x) s) := by
  rw [exec_ldk, exec_ldk, execLdk, execLdk, hkey]
  cases s.inputs.lastKey with
  | none => exact congrArg _ hnone
  | some k => exact congrArg _ (hsome _)

theorem State.setLogic_carries (x : Digit) (b : Byte) (hv : (f s).variant = s.variant)
    (hlegacy : (f s).setRegFlag x b 0x00#8 = f (s.setRegFlag x b 0x00#8))
    (hmodern : (f s).setReg x b = f (s.setReg x b)) : (f s).setLogic x b = f (s.setLogic x b) := by
  cases h : s.variant with
  | legacy => rw [State.setLogic_legacy h, State.setLogic_legacy (hv.trans h), hlegacy]
  | modern => rw [State.setLogic_modern h, State.setLogic_modern (hv.trans h), hmodern]

end

/-! ### The variant -/

/-- The state under another variant. -/
def State.setVariant (s : State) (v : Variant) : State := { s with variant := v }

theorem exec_setVariant {i : Instr} (hi : i.mnemonic ∉ ["OR", "AND", "XOR", "SHR", "SHL", "JPV", "STM", "LDM"])
    (s : State) (v : Variant) : exec i (s.setVariant v) = onNext (·.setVariant v) (exec i s) := by
  cases i with
  | or | and | xor | shr | shl | jpv | stm | ldm => exact absurd (by simp [Instr.mnemonic]) hi
  | call nnn => exact exec_call_carries (·.setVariant v) s nnn rfl rfl rfl (fun _ => rfl) fun _ _ => rfl
  | ret d => exact exec_ret_carries (·.setVariant v) s d rfl rfl fun _ => rfl
  | ldk x => exact exec_ldk_carries (·.setVariant v) s x rfl rfl fun _ => rfl
  | drw x y n => exact exec_carries_of_ite (·.setVariant v) s (.drw x y n) (execDrw_eq x y n) Iff.rfl rfl rfl
  | bcd x => exact exec_carries_of_ite (·.setVariant v) s (.bcd x) (execBcd_eq x) Iff.rfl rfl rfl
  | _ => rfl

/-! ### The inputs -/

theorem State.setLogic_advance_setInputs (s : State) (x : Digit) (b : Byte) (inputs : Inputs) :
    ((s.setInputs inputs).setLogic x b).advance = (s.setLogic x b).advance.setInputs inputs :=
  congrArg State.advance (State.setLogic_carries (·.setInputs inputs) s x b rfl rfl rfl)

theorem exec_setInputs {i : Instr} (hi : i.mnemonic ∉ ["SKP", "SKNP", "LDK", "RND"]) (s : State) (inputs : Inputs) :
    exec i (s.setInputs inputs) = onNext (·.setInputs inputs) (exec i s) := by
  cases i with
  | skp | sknp | ldk | rnd => exact absurd (by simp [Instr.mnemonic]) hi
  | call nnn => exact exec_call_carries (·.setInputs inputs) s nnn rfl rfl rfl (fun _ => rfl) fun _ _ => rfl
  | ret d => exact exec_ret_carries (·.setInputs inputs) s d rfl rfl fun _ => rfl
  | or x y | and x y | xor x y => exact congrArg _ (s.setLogic_advance_setInputs x _ inputs)
  | drw x y n => exact exec_carries_of_ite (·.setInputs inputs) s (.drw x y n) (execDrw_eq x y n) Iff.rfl rfl rfl
  | bcd x => exact exec_carries_of_ite (·.setInputs inputs) s (.bcd x) (execBcd_eq x) Iff.rfl rfl rfl
  | stm x => exact exec_carries_of_ite (·.setInputs inputs) s (.stm x) (execStm_eq x) Iff.rfl rfl rfl
  | ldm x => exact exec_carries_of_ite (·.setInputs inputs) s (.ldm x) (execLdm_eq x) Iff.rfl rfl rfl
  | _ => rfl

/-! ### The display -/

theorem State.setLogic_advance_setDisp (s : State) (x : Digit) (b : Byte) (d : Vector (BitVec 64) 32) :
    ((s.setDisp d).setLogic x b).advance = (s.setLogic x b).advance.setDisp d :=
  congrArg State.advance (State.setLogic_carries (·.setDisp d) s x b rfl rfl rfl)

/-- `CLS` forgets the display it starts from. -/
theorem exec_cls_setDisp (x : Digit) (s : State) (d : Vector (BitVec 64) 32) :
    exec (.cls x) (s.setDisp d) = exec (.cls x) s := rfl

theorem exec_setDisp {i : Instr} (hcls : ∀ x, i ≠ .cls x) (hdrw : i.mnemonic ≠ "DRW") (s : State)
    (d : Vector (BitVec 64) 32) : exec i (s.setDisp d) = onNext (·.setDisp d) (exec i s) := by
  cases i with
  | cls x => exact absurd rfl (hcls x)
  | drw x y n => exact absurd rfl hdrw
  | call nnn => exact exec_call_carries (·.setDisp d) s nnn rfl rfl rfl (fun _ => rfl) fun _ _ => rfl
  | ret x => exact exec_ret_carries (·.setDisp d) s x rfl rfl fun _ => rfl
  | or x y | and x y | xor x y => exact congrArg _ (s.setLogic_advance_setDisp x _ d)
  | ldk x => exact exec_ldk_carries (·.setDisp d) s x rfl rfl fun _ => rfl
  | bcd x => exact exec_carries_of_ite (·.setDisp d) s (.bcd x) (execBcd_eq x) Iff.rfl rfl rfl
  | stm x => exact exec_carries_of_ite (·.setDisp d) s (.stm x) (execStm_eq x) Iff.rfl rfl rfl
  | ldm x => exact exec_carries_of_ite (·.setDisp d) s (.ldm x) (execLdm_eq x) Iff.rfl rfl rfl
  | _ => rfl

/-! ### The obligations -/

/-- Settles O32: every instruction outside the four families carries a change of the variant through. -/
theorem onlyFourFamiliesReadVariant : Obligations.OnlyFourFamiliesReadVariant :=
  fun _ s v hi => exec_setVariant hi s v

/-- Settles O33: every instruction but the four carries a change of the snapshot through. -/
theorem onlyFourInstructionsReadInputs : Obligations.OnlyFourInstructionsReadInputs :=
  fun _ s inputs hi => exec_setInputs hi s inputs

/-- Settles O34: `CLS` forgets the old display; every other instruction but `DRW` carries a change of it through. -/
theorem onlyDrawReadsDisplay : Obligations.OnlyDrawReadsDisplay := by
  intro i s t d hi ht
  by_cases hcls : ∃ x, i = .cls x
  · obtain ⟨x, rfl⟩ := hcls
    exact ⟨t.disp, (exec_cls_setDisp x s d).trans ht⟩
  · exact ⟨d, by rw [exec_setDisp (not_exists.1 hcls) hi, ht, onNext]⟩

end Sys2Proof.Machine
end

section
/-! Proofs: the `STEP` event and the step of the interface (10_state R15, 20_memory R41, 60_exceptions R171 to R177).
First the frames of the events' parts, then what the `STEP` event answers on a running machine, then the obligations. -/

namespace Sys2Proof.Machine

/-! ### Frames -/

theorem State.frame_closeLoad (s : State) : s.frame s.closeLoad [] [.host] := by
  refine ⟨fun k _ => s.reg_closeLoad k, fun p hp => ?_⟩
  cases p <;> simp [State.keeps] at hp ⊢

theorem State.frame_stoppedStep (s : State) : s.frame s.stoppedStep [] [] := by
  refine ⟨fun k _ => s.reg_stoppedStep k, fun p _ => ?_⟩
  cases p <;> simp [State.keeps]

theorem State.frame_hostTurn (s : State) : s.frame s.hostTurn [] [.dt, .st, .host] := by
  refine ⟨fun k _ => s.reg_hostTurn k, fun p hp => ?_⟩
  cases p <;> simp [State.keeps] at hp ⊢

/-- Closing `LOAD` at a step's end adds only the host's side to a frame. -/
theorem State.frame_closeLoad_of_frame {s t : State} {regs : List Digit} {parts : List Part}
    (h : s.frame t regs parts) : s.frame t.closeLoad regs (parts ++ [.host]) :=
  State.frame_trans (State.frame_mono h (List.Subset.refl _) (by simp))
    (State.frame_mono t.frame_closeLoad (List.nil_subset _) (by simp))

/-! ### The step on a running machine -/

theorem step_eq (s : State) : step s = onNext State.hostTurn (stepEvent s) := rfl

theorem stepEvent_of_le {s : State} (hrun : s.fault = .noFault) (hpc : s.pc.toNat ≤ 0xFFE) :
    stepEvent s = onNext State.closeLoad
      (exec (decodeWord (wordOfBytes (s.mem.read s.pc.toNat) (s.mem.read (s.pc.toNat + 1)))) s) := by
  rw [stepEvent_running hrun, fetchExec_of_le hpc]

theorem stepEvent_of_bytes {s : State} {high low : Byte} (hrun : s.fault = .noFault) (hpc : s.pc.toNat ≤ 0xFFE)
    (hhigh : s.mem.read s.pc.toNat = high) (hlow : s.mem.read (s.pc.toNat + 1) = low) :
    stepEvent s = onNext State.closeLoad (exec (decodeWord (wordOfBytes high low)) s) := by
  rw [stepEvent_of_le hrun hpc, hhigh, hlow]

theorem stepEvent_of_gt {s : State} (hrun : s.fault = .noFault) (hpc : 0xFFE < s.pc.toNat) :
    stepEvent s = .next (s.takeFault .fetchRange).closeLoad := by
  rw [stepEvent_running hrun, fetchExec_of_gt (by omega), onNext]

theorem stepEvent_goes_on (s : State) : ∃ t, stepEvent s = .next t := by
  by_cases hrun : s.fault = .noFault
  · rcases le_or_gt s.pc.toNat 0xFFE with hpc | hpc
    · obtain ⟨t, ht⟩ := exec_goes_on
        (decodeWord (wordOfBytes (s.mem.read s.pc.toNat) (s.mem.read (s.pc.toNat + 1)))) s
      exact ⟨_, by rw [stepEvent_of_le hrun hpc, ht, onNext]⟩
    · exact ⟨_, stepEvent_of_gt hrun hpc⟩
  · exact ⟨_, stepEvent_stopped hrun⟩

theorem decodeTableWord_eq (nbits w : Nat) : decodeTableWord nbits w = some (decodeWord (tableWord nbits w)) := by
  rw [decodeTableWord, ← List.append_nil (bytesOfWord _), decode_bytesOfWord_append]

/-- Byte k of the word stored for the next fetch is at PC + k. -/
theorem State.read_withFetchWord {s : State} (hwf : s.memWf) (nbits w k : Nat) (hk : k < 2) :
    (s.withFetchWord nbits w).mem.read ((s.withFetchWord nbits w).pc.toNat + k) =
      (bytesOfWord (tableWord nbits w))[k] := by
  have hpc := s.readyToFetch_pc_le
  exact Memory.read_writeBytes_inside (bs := bytesOfWord (tableWord nbits w)) hwf
    (by simp only [bytesOfWord, List.length_cons, List.length_nil, Config.memSize]; omega) k hk

/-- A word stored for the next fetch is the one that the `STEP` event decodes. -/
theorem stepEvent_withFetchWord {s : State} (hwf : s.memWf) (nbits w : Nat) :
    stepEvent (s.withFetchWord nbits w) =
      onNext State.closeLoad (exec (decodeWord (tableWord nbits w)) (s.withFetchWord nbits w)) := by
  rw [stepEvent_of_bytes (s := s.withFetchWord nbits w) s.readyToFetch_fault s.readyToFetch_pc_le
    (State.read_withFetchWord hwf nbits w 0 (by decide)) (State.read_withFetchWord hwf nbits w 1 (by decide))]
  exact congrArg (fun v => onNext State.closeLoad (exec (decodeWord v) _)) (wordOfBytes_bytes _)

/-! ### The obligations -/

/-- Settles O29: every instruction by the split over the branching ones, the step by the latch and the fetch check. -/
theorem everyInstructionAndStepGoesOn : Obligations.EveryInstructionAndStepGoesOn := by
  refine ⟨exec_goes_on, fun s => ?_⟩
  obtain ⟨t, ht⟩ := stepEvent_goes_on s
  exact ⟨_, by rw [step_eq, ht, onNext]⟩

/-- Settles O35: the decoder's answer names the instruction that the fetched word decodes to. -/
theorem stepRunsTheDecodedInstruction : Obligations.StepRunsTheDecodedInstruction := by
  intro i s hrun hpc _ hdecode
  obtain rfl : decodeWord (wordOfBytes (s.mem.read s.pc.toNat) (s.mem.read (s.pc.toNat + 1))) = i := by
    simpa [decode] using hdecode
  rw [step_eq, stepEvent_of_le hrun hpc]

/-- Settles O36: the machine made ready to fetch runs, and reads the word stored at its PC. -/
theorem fetchWordRunsNext : Obligations.FetchWordRunsNext := by
  intro i s w hwf hdecode
  rw [decodeTableWord_eq, Option.some.injEq] at hdecode
  rw [step_eq, stepEvent_withFetchWord hwf, hdecode]

/-- Settles O37: `STM` leaves V0 and V1 at the address of the next fetch. -/
theorem storeIsSeenByNextFetch : Obligations.StoreIsSeenByNextFetch := by
  intro x s t hwf hrun hpc hx hindex hle hstm
  have hx1 : 1 ≤ x.toNat := Nat.one_le_iff_ne_zero.2 fun h => hx (BitVec.eq_of_toNat_eq h)
  rw [exec_stm_of_le hle] at hstm
  cases hstm
  have hnpc : (s.pc + 2#16).toNat = s.indexAddr := by
    rw [hindex, BitVec.toNat_add, BitVec.toNat_ofNat]
    omega
  have h0 := State.read_writeBytes_regsTo (k := 0x0#4) hwf hle (Nat.zero_le _)
  have h1 := State.read_writeBytes_regsTo (k := 0x1#4) hwf hle hx1
  refine stepEvent_of_bytes hrun (hnpc.trans_le (by omega)) ?_ ?_
  · exact (congrArg (Memory.read _) hnpc).trans h0
  · exact (congrArg (fun a => Memory.read _ (a + 1)) hnpc).trans h1

/-- Settles O38: the fetch check comes first, and a taken fault leaves everything but the latch. -/
theorem fetchBeyondMemoryFaults : Obligations.FetchBeyondMemoryFaults := by
  intro s hrun hpc
  exact ⟨_, stepEvent_of_gt hrun hpc, rfl, rfl, rfl, State.frame_closeLoad_of_frame (s.frame_takeFault _)⟩

/-- Settles O39: the stopped step changes nothing, and the host's turn after it only the timers and the host's side. -/
theorem stoppedMachineOnlyTicks : Obligations.StoppedMachineOnlyTicks := by
  intro s hstop
  have hframe : s.frame s.stoppedStep.closeLoad [] [.host] := State.frame_closeLoad_of_frame s.frame_stoppedStep
  refine ⟨⟨_, stepEvent_stopped hstop, rfl, rfl, hframe⟩, s.stoppedStep.closeLoad.hostTurn, ?_, ?_, ?_, ?_, ?_⟩
  · rw [step_eq, stepEvent_stopped hstop, onNext]
  · simp
  · simp [countDownBy_toNat]
  · simp [countDownBy_toNat]
  · exact State.frame_trans (State.frame_mono hframe (List.Subset.refl _) (by simp)) (State.frame_hostTurn _)

/-- Settles O41: the host's turn is some number of ticks, and is felt by nothing else of the core. -/
theorem hostTurnOnlyTicks : Obligations.HostTurnOnlyTicks := by
  intro s t h
  obtain ⟨u, hu, rfl⟩ := step_cases h
  refine ⟨u, u.nextTurn.ticks, hu, ?_, ?_, u.hostTurn_pc, u.hostTurn_redraw, u.frame_hostTurn⟩
  · rw [State.hostTurn_dt, countDownBy_toNat]
  · rw [State.hostTurn_st, countDownBy_toNat]

end Sys2Proof.Machine
end

section
/-! Proofs: the events (60_exceptions R175, R181, R186; 70_reset R200 to R204). First the parts of the state that no
instruction writes and so no `STEP` event changes, then ticks in a row, what `LOAD` and `RESET` answer and the stable
end, then the obligations. -/

namespace Sys2Proof.Machine

/-! ### What no `STEP` event changes -/

theorem variant_not_mem_partsWritten (v : Variant) (i : Instr) : .variant ∉ partsWritten v i := by
  cases i with
  | stm x | ldm x => cases v <;> simp [partsWritten]
  | _ => simp [partsWritten]

theorem host_not_mem_partsWritten (v : Variant) (i : Instr) : .host ∉ partsWritten v i := by
  cases i with
  | stm x | ldm x => cases v <;> simp [partsWritten]
  | _ => simp [partsWritten]

theorem stepEvent_variant {s t : State} (h : stepEvent s = .next t) : t.variant = s.variant := by
  obtain ⟨-, rfl⟩ | ⟨-, -, rfl⟩ | ⟨-, -, u, hu, rfl⟩ := stepEvent_cases h
  · rfl
  · rfl
  · exact (everyInstructionKeepsItsFrame _ s u hu).2 .variant (variant_not_mem_partsWritten _ _)

theorem stepEvent_schedule {s t : State} (h : stepEvent s = .next t) : t.schedule = s.schedule := by
  obtain ⟨-, rfl⟩ | ⟨-, -, rfl⟩ | ⟨-, -, u, hu, rfl⟩ := stepEvent_cases h
  · rfl
  · rfl
  · obtain ⟨-, hschedule, -⟩ := (everyInstructionKeepsItsFrame _ s u hu).2 .host (host_not_mem_partsWritten _ _)
    exact hschedule

/-! ### Ticks in a row -/

theorem deliverAll_replicate_tick (n : Nat) (s : State) :
    deliverAll (List.replicate n .tick) s = .next (State.ticks n s) := by
  induction n generalizing s with
  | zero => rw [State.ticks_zero]; rfl
  | succ n ih => rw [State.ticks_succ]; exact ih s.tick

/-- A scheduled turn is taken as it stands. -/
theorem State.hostTurn_of_schedule {s : State} {turn : HostTurn} {rest : List HostTurn}
    (h : s.schedule = turn :: rest) :
    s.hostTurn = { State.ticks turn.ticks s with inputs := turn.inputs, schedule := rest } := by
  simp only [State.hostTurn, State.nextTurn, State.popTurn, h]
  rfl

/-! ### `LOAD` -/

theorem deliver_load (bytes : List Byte) (s : State) : deliver (.load bytes) s = loadEvent bytes s := rfl

theorem deliver_load_of_le {bytes : List Byte} {s : State} (hlen : bytes.length ≤ 3584) (hadm : s.loadable = true) :
    deliver (.load bytes) s = .next ((s.setMem (s.mem.writeBytes 0x200 bytes)).closeLoad) := by
  rw [deliver_load, loadEvent, Config.progMax, if_neg (by omega), if_pos hadm, Config.progBase]

theorem deliver_load_of_long {bytes : List Byte} (s : State) (hlen : 3584 < bytes.length) :
    deliver (.load bytes) s = .refused .imageTooLong := by
  rw [deliver_load, loadEvent, Config.progMax, if_pos hlen]

theorem deliver_load_of_not_loadable {bytes : List Byte} {s : State} (hlen : bytes.length ≤ 3584)
    (hadm : s.loadable = false) : deliver (.load bytes) s = .refused .loadNotAdmitted := by
  rw [deliver_load, loadEvent, Config.progMax, if_neg (by omega), if_neg (by simp [hadm])]

/-- A `LOAD` that goes on is of an image that fits. -/
theorem deliver_load_cases {bytes : List Byte} {s t : State} (h : deliver (.load bytes) s = .next t) :
    bytes.length ≤ 3584 ∧ t = (s.setMem (s.mem.writeBytes 0x200 bytes)).closeLoad := by
  rcases le_or_gt bytes.length 3584 with hlen | hlen
  · cases hadm : s.loadable with
    | true => rw [deliver_load_of_le hlen hadm] at h; cases h; exact ⟨hlen, rfl⟩
    | false => rw [deliver_load_of_not_loadable hlen hadm] at h; cases h
  · rw [deliver_load_of_long s hlen] at h; cases h

/-! ### `RESET` -/

theorem deliver_reset (v : Variant) (rom : Vector Byte 80) (s : State) :
    deliver (.reset v rom) s = .next (s.resetEvent v rom) := rfl

/-- Outside the glyph table an unlisted byte is 0. -/
theorem unlisted_outside_glyphs {a : Nat} (h : a < 0x050 ∨ 0x0A0 ≤ a) : unlisted a = 0x00#8 := by
  unfold unlisted Config.glyphBase
  split
  · have hlen : defaultGlyphRom.length = 80 := by decide
    exact List.getD_eq_default _ _ (by omega)
  · rfl

theorem read_resetMemory_glyphs (rom : Vector Byte 80) (k : Fin 80) :
    (resetMemory rom).read (0x050 + k.val) = rom[k.val] := by
  have hread := Memory.read_writeBytes_inside (m := []) (lo := Config.glyphBase) (bs := rom.toList) rfl
    (by simp [Config.glyphBase, Config.memSize]) k.val (by simp)
  rwa [Vector.getElem_toList] at hread

theorem read_resetMemory_outside (rom : Vector Byte 80) {a : Nat} (h : a < 0x050 ∨ 0x0A0 ≤ a) :
    (resetMemory rom).read a = 0x00#8 := by
  rw [resetMemory, Memory.read_writeBytes_outside _ _ _ (by simp only [Vector.length_toList, Config.glyphBase]; omega)]
  exact unlisted_outside_glyphs h

theorem State.reg_resetEvent (s : State) (v : Variant) (rom : Vector Byte 80) (k : Digit) :
    (s.resetEvent v rom).reg k = 0x00#8 :=
  Vector.getElem_replicate _

theorem State.stack_resetEvent (s : State) (v : Variant) (rom : Vector Byte 80) (k : Fin 16) :
    (s.resetEvent v rom).stack[k.val] = 0x0000#16 :=
  Vector.getElem_replicate _

/-! ### The stable end (60_exceptions R186) -/

/-- The two bytes that a stable end has at its address are those of `JP a`. -/
theorem wordOfBytes_jp (a : Addr12) :
    wordOfBytes (0x1#4 ++ (a.extractLsb' 8 4)) (a.extractLsb' 0 8) = wordNNN 0x1#4 a := by
  have hhigh : (wordNNN 0x1#4 a).extractLsb' 8 8 = 0x1#4 ++ a.extractLsb' 8 4 := by
    refine BitVec.eq_of_getLsbD_eq fun i hi => ?_
    simp only [BitVec.getLsbD_extractLsb', BitVec.getLsbD_append, getLsbD_wordNNN, hi]
    by_cases h : i < 4
    · simp [h, show 8 + i < 12 by omega]
    · simp [h, show ¬ 8 + i < 12 by omega, show 8 + i - 12 = i - 4 by omega]
  have hlow : (wordNNN 0x1#4 a).extractLsb' 0 8 = a.extractLsb' 0 8 := by
    rw [← BitVec.setWidth_eq_extractLsb' (by decide : 8 ≤ 12)]
    exact nnOf_wordNNN 0x1#4 a
  rw [← hhigh, ← hlow, wordOfBytes_bytes]

/-- At a stable end the `STEP` event is the jump to where the PC is already. -/
theorem stepEvent_of_stableEnd {s : State} {a : Addr12} (h : s.stableEnd a) :
    stepEvent s = .next (s.goTo (zext16 a)).closeLoad := by
  obtain ⟨hrun, hpc, hle, hhigh, hlow⟩ := h
  have hpc' : s.pc.toNat = a.toNat := by rw [hpc, toNat_zext16]
  rw [← hpc'] at hle hhigh hlow
  rw [stepEvent_of_bytes hrun hle hhigh hlow, wordOfBytes_jp,
    show decodeWord (wordNNN 0x1#4 a) = .jp a from Laws.RoundTrip.jp a rfl, exec_jp, onNext]

/-! ### The obligations -/

/-- Settles O42: the `STEP` event leaves the schedule alone, and the host's turn is its head. -/
theorem everyNumberOfTicksIsAdmitted : Obligations.EveryNumberOfTicksIsAdmitted := by
  intro s u turn rest hschedule hu
  refine ⟨_, deliverAll_replicate_tick turn.ticks u, ?_⟩
  rw [step_eq, hu, onNext, State.hostTurn_of_schedule ((stepEvent_schedule hu).trans hschedule)]

/-- Settles O43: an admitted `LOAD` is one write of the image; the other two are refused. -/
theorem loadWritesTheImage : Obligations.LoadWritesTheImage := by
  intro bytes s hwf
  refine ⟨fun ⟨hlen, hadm⟩ => ?_, deliver_load_of_long s, fun ⟨hlen, hadm⟩ => deliver_load_of_not_loadable hlen hadm⟩
  exact ⟨_, deliver_load_of_le hlen hadm,
    Memory.read_writeBytes_inside hwf (by rw [Config.memSize]; omega), State.sameBytesOutside_writeBytes rfl, rfl, rfl,
    State.frame_closeLoad_of_frame (s.frame_setMem _)⟩

/-- Settles O44: the fields by definition, the display and the memory byte by byte. -/
theorem resetSetsEveryPiece : Obligations.ResetSetsEveryPiece := by
  intro v rom s
  exact ⟨_, deliver_reset v rom s, rfl, rfl, fun r c _ _ => State.pixel_eq_false_of_disp_eq_clearDisp rfl r c,
    read_resetMemory_glyphs rom, fun a ha => read_resetMemory_outside rom ha, s.reg_resetEvent v rom, rfl, rfl, rfl,
    rfl, s.stack_resetEvent v rom, rfl, rfl, rfl⟩

/-- Settles O45: `LOAD` and `TICK` touch neither, and a `STEP` event on a stopped machine does nothing. -/
theorem onlyResetChangesVariantOrClearsFault : Obligations.OnlyResetChangesVariantOrClearsFault := by
  intro e s t h hchange
  cases e with
  | reset v rom => exact ⟨v, rom, rfl⟩
  | tick => cases h; simp at hchange
  | load bytes =>
    obtain ⟨-, rfl⟩ := deliver_load_cases h
    simp at hchange
  | step inputs =>
    rcases hchange with hvariant | ⟨hstop, hfault⟩
    · exact absurd (stepEvent_variant h) hvariant
    · rw [show deliver (.step inputs) s = _ from stepEvent_stopped (s := s.setInputs inputs) hstop] at h
      cases h
      exact absurd rfl hfault

/-- Settles O46: the step is the jump to the PC, and a stable end looks at nothing that it or a tick changes. -/
theorem stableEndIsStable : Obligations.StableEndIsStable := by
  intro s a h
  refine ⟨_, stepEvent_of_stableEnd h, ?_, ?_, ?_, h⟩
  · obtain ⟨-, hpc, -⟩ := h
    exact hpc.symm
  · exact State.frame_closeLoad_of_frame (State.frame_goTo (s.frame_refl _ []) _)
  · obtain ⟨hrun, -, hle, hhigh, hlow⟩ := h
    exact ⟨hrun, rfl, hle, hhigh, hlow⟩

end Sys2Proof.Machine
end

section
/-! Proofs: the invariants (10_state R13 to R18, 20_memory R40). First the induction over steps and events, said once
for every property of the PC, the stack and memory; then memory's canonical form and the bounds on addresses, each kept
by every instruction; then canonical memories as data and the obligations. -/

namespace Sys2Proof.Machine

/-! ### Steps and events keep what instructions, `LOAD` and `RESET` keep -/

/-- A property of the PC, the stack and memory: a state that agrees on these has it too. -/
def OnPcStackMem (P : State → Prop) : Prop :=
  ∀ s t : State, t.pc = s.pc → t.stack = s.stack → t.mem = s.mem → P s → P t

/-- Every instruction run from a fetchable PC keeps the property. -/
def ExecKeeps (P : State → Prop) : Prop :=
  ∀ (i : Instr) (s t : State), s.pc.toNat ≤ 0xFFE → P s → exec i s = .next t → P t

section
variable {P : State → Prop} (hlocal : OnPcStackMem P) (hexec : ExecKeeps P)
include hlocal hexec

theorem stepEvent_keeps {s t : State} (hs : P s) (h : stepEvent s = .next t) : P t := by
  obtain ⟨-, rfl⟩ | ⟨-, -, rfl⟩ | ⟨-, hpc, u, hu, rfl⟩ := stepEvent_cases h
  · exact hlocal s _ rfl rfl rfl hs
  · exact hlocal s _ rfl rfl rfl hs
  · exact hlocal u _ rfl rfl rfl (hexec _ s u hpc hs hu)

theorem step_keeps {s t : State} (hs : P s) (h : step s = .next t) : P t := by
  obtain ⟨u, hu, rfl⟩ := step_cases h
  exact hlocal u _ u.hostTurn_pc u.hostTurn_stack u.hostTurn_mem (stepEvent_keeps hlocal hexec hs hu)

theorem deliver_keeps (hreset : ∀ s v rom, P (State.resetEvent s v rom))
    (hload : ∀ bytes s, List.length bytes ≤ 3584 → P s → P (s.setMem (s.mem.writeBytes 0x200 bytes)))
    {e : HostEvent} {s t : State} (hs : P s) (h : deliver e s = .next t) : P t := by
  cases e with
  | reset v rom => cases h; exact hreset s v rom
  | load bytes =>
    obtain ⟨hlen, rfl⟩ := deliver_load_cases h
    exact hlocal (s.setMem _) _ rfl rfl rfl (hload bytes s hlen hs)
  | step inputs => exact stepEvent_keeps hlocal hexec (hlocal s (s.setInputs inputs) rfl rfl rfl hs) h
  | tick => cases h; exact hlocal s _ rfl rfl rfl hs

end

/-! ### Memory in its canonical form -/

/-- An instruction leaves memory as it is or stores bytes inside it. -/
theorem exec_mem_cases {i : Instr} {s t : State} (h : exec i s = .next t) :
    t.mem = s.mem ∨ ∃ lo bytes, lo + List.length bytes ≤ Config.memSize ∧ t.mem = s.mem.writeBytes lo bytes := by
  cases i with
  | call nnn => cases h; exact .inl (s.push_mem _)
  | or x _ | and x _ | xor x _ => cases h; exact .inl (s.setLogic_mem x _)
  | ret d => obtain rfl | ⟨k, rfl⟩ := exec_ret_cases h <;> exact .inl rfl
  | ldk x => obtain ⟨b, rfl⟩ | rfl := exec_ldk_cases h <;> exact .inl rfl
  | drw x y n =>
    obtain rfl | rfl := exec_drw_cases h
    · exact .inl (s.mem_drawn x y n)
    · exact .inl rfl
  | bcd x =>
    obtain ⟨hle, rfl⟩ | rfl := exec_bcd_cases h
    · exact .inr ⟨_, _, hle, rfl⟩
    · exact .inl rfl
  | stm x =>
    obtain ⟨hle, rfl⟩ | rfl := exec_stm_cases h
    · exact .inr ⟨_, _, (s.length_regsTo x).symm ▸ hle, rfl⟩
    · exact .inl rfl
  | ldm x => obtain rfl | rfl := exec_ldm_cases h <;> exact .inl rfl
  | _ => cases h; exact .inl rfl

theorem memWf_onPcStackMem : OnPcStackMem State.memWf :=
  fun _ _ _ _ hmem hs => (congrArg Memory.wf hmem).trans hs

theorem exec_keeps_memWf : ExecKeeps State.memWf := by
  intro i s t _ hs h
  obtain hmem | ⟨lo, bytes, hle, hmem⟩ := exec_mem_cases h
  · exact (congrArg Memory.wf hmem).trans hs
  · exact (congrArg Memory.wf hmem).trans (Memory.wf_writeBytes hs hle)

/-! ### The bounds on the PC and the stack -/

theorem pcBounded_onPcStackMem : OnPcStackMem State.pcBounded := by
  intro s t hpc hstack _ hs
  unfold State.pcBounded
  rwa [hpc, hstack]

variable {s t : State}

/-- With the old stack, only the new PC has to be looked at. -/
theorem State.pcBounded_of_stack_eq (hs : s.pcBounded) (hstack : t.stack = s.stack) (hpc : t.pc.toNat ≤ 0x10FE) :
    t.pcBounded := by
  obtain ⟨-, hentries⟩ := hs
  exact ⟨hpc, by rwa [hstack]⟩

/-- From a fetchable PC neither of the next two instructions is beyond the bound. -/
theorem toNat_add_le_of_fetchable {pc : Word} (hpc : pc.toNat ≤ 0xFFE) {n : Nat} (hn : n ≤ 4) :
    (pc + BitVec.ofNat 16 n).toNat ≤ 0xFFE + n := by
  rw [BitVec.toNat_add, BitVec.toNat_ofNat]
  omega

theorem State.pcBounded_of_npc (hpc : s.pc.toNat ≤ 0xFFE) (hs : s.pcBounded) (hstack : t.stack = s.stack)
    (hnpc : t.pc = s.pc + 2#16) : t.pcBounded :=
  State.pcBounded_of_stack_eq hs hstack (by
    rw [hnpc]
    exact (toNat_add_le_of_fetchable hpc (by decide : 2 ≤ 4)).trans (by decide))

theorem State.pcBounded_skipIf (hpc : s.pc.toNat ≤ 0xFFE) (hs : s.pcBounded) (c : Bool) : (s.skipIf c).pcBounded := by
  cases c with
  | false => exact State.pcBounded_of_npc hpc hs rfl rfl
  | true =>
    have hadd : s.pc + 2#16 + 2#16 = s.pc + 4#16 := BitVec.add_assoc s.pc 2#16 2#16
    refine State.pcBounded_of_stack_eq hs rfl ?_
    rw [State.skipIf_pc, if_pos rfl, hadd]
    exact (toNat_add_le_of_fetchable hpc (Nat.le_refl 4)).trans (by decide)

theorem State.pcBounded_jump (hs : s.pcBounded) (nnn : Addr12) (b : Byte) {target : Word}
    (htarget : target.toNat = nnn.toNat + b.toNat) : (s.goTo target).pcBounded := by
  have := nnn.isLt
  have := b.isLt
  exact State.pcBounded_of_stack_eq hs rfl (by rw [State.goTo_pc]; omega)

/-- The entry that a `CALL` pushes is at most 0x1000. -/
theorem State.pcBounded_call (hpc : s.pc.toNat ≤ 0xFFE) (hs : s.pcBounded) (nnn : Addr12) :
    ((s.push s.npc).goTo (zext16 nnn)).pcBounded := by
  refine State.pcBounded_jump ?_ nnn 0#8 (toNat_zext16 nnn)
  obtain ⟨hbound, hentries⟩ := hs
  rcases Nat.lt_or_ge s.stackUsed.val 16 with hused | hused
  · refine ⟨by rwa [State.push_pc], fun k => ?_⟩
    rw [State.getElem_push_stack s.npc hused k.val k.isLt]
    split
    · exact toNat_add_le_of_fetchable hpc (by decide : 2 ≤ 4)
    · exact hentries k
  · rw [State.push_of_full _ (by omega)]
    exact ⟨hbound, hentries⟩

theorem exec_keeps_pcBounded : ExecKeeps State.pcBounded := by
  intro i s t hpc hs h
  cases i with
  | jp nnn => cases h; exact State.pcBounded_jump hs nnn 0#8 (toNat_zext16 nnn)
  | jpv nnn => cases h; exact State.pcBounded_jump hs nnn _ (s.toNat_jpvTarget nnn)
  | call nnn => cases h; exact State.pcBounded_call hpc hs nnn
  | ret d =>
    obtain rfl | ⟨k, rfl⟩ := exec_ret_cases h
    · exact State.pcBounded_of_npc hpc hs rfl rfl
    · exact State.pcBounded_of_stack_eq hs rfl ((hs.2 k).trans (by decide))
  | se _ _ | sne _ _ | ser _ _ _ | sner _ _ _ | skp _ | sknp _ => cases h; exact State.pcBounded_skipIf hpc hs _
  | or x _ | and x _ | xor x _ =>
    cases h
    exact State.pcBounded_of_npc hpc hs (s.setLogic_stack x _) (congrArg (· + 2#16) (s.setLogic_pc x _))
  | ldk x =>
    obtain ⟨b, rfl⟩ | rfl := exec_ldk_cases h
    · exact State.pcBounded_of_npc hpc hs rfl rfl
    · exact State.pcBounded_of_stack_eq hs rfl hs.1
  | drw x y n =>
    obtain rfl | rfl := exec_drw_cases h
    · exact State.pcBounded_of_npc hpc hs (by simp [State.drawn]) (s.pc_drawn x y n)
    · exact hs
  | bcd x =>
    obtain ⟨-, rfl⟩ | rfl := exec_bcd_cases h
    · exact State.pcBounded_of_npc hpc hs rfl rfl
    · exact hs
  | stm x =>
    obtain ⟨-, rfl⟩ | rfl := exec_stm_cases h
    · exact State.pcBounded_of_npc hpc hs rfl rfl
    · exact hs
  | ldm x =>
    obtain rfl | rfl := exec_ldm_cases h
    · exact State.pcBounded_of_npc hpc hs rfl rfl
    · exact hs
  | _ => cases h; exact State.pcBounded_of_npc hpc hs rfl rfl

theorem State.pcBounded_reset : State.reset.pcBounded :=
  ⟨(by decide : (0x0200#16).toNat ≤ 0x10FE),
    fun k => (congrArg BitVec.toNat (Vector.getElem_replicate k.isLt)).trans_le (Nat.zero_le _)⟩

theorem State.pcBounded_resetEvent (s : State) (v : Variant) (rom : Vector Byte 80) :
    (s.resetEvent v rom).pcBounded :=
  State.pcBounded_of_stack_eq State.pcBounded_reset rfl State.pcBounded_reset.1

/-! ### Canonical memories as data -/

theorem Memory.read_head (k : Nat) (b : Byte) (m : Memory) : Memory.read ((k, b) :: m) k = b := if_pos rfl

theorem Memory.read_tail {k a : Nat} (b : Byte) (m : Memory) (h : k ≠ a) :
    Memory.read ((k, b) :: m) a = Memory.read m a := if_neg h

/-- A canonical memory from `lo` upward lists nothing below `lo`. -/
theorem Memory.le_of_read_ne_unlisted {lo a : Nat} {m : Memory} (hm : Memory.wfFrom lo m = true)
    (ha : m.read a ≠ unlisted a) : lo ≤ a :=
  not_lt.1 fun hlt => ha (Memory.read_of_lt hm hlt)

/-- Two canonical memories that read the same have the same cells, cell by cell from the lowest address. -/
theorem Memory.eq_of_read_eq {lo : Nat} {m m' : Memory} (hm : Memory.wfFrom lo m = true)
    (hm' : Memory.wfFrom lo m' = true) (hread : ∀ a, a < Config.memSize → m.read a = m'.read a) : m = m' := by
  induction m generalizing lo m' with
  | nil =>
    cases m' with
    | nil => rfl
    | cons c m' =>
      obtain ⟨-, hsize, hb, -⟩ := Memory.wfFrom_cons.1 hm'
      exact absurd ((hread _ hsize).trans (Memory.read_head _ _ m')).symm hb
  | cons c m ih =>
    obtain ⟨k, b⟩ := c
    obtain ⟨-, hsize, hb, htail⟩ := Memory.wfFrom_cons.1 hm
    have hk := (hread k hsize).symm.trans (Memory.read_head k b m)
    cases m' with
    | nil => exact absurd hk.symm hb
    | cons c' m' =>
      obtain ⟨k', b'⟩ := c'
      obtain ⟨-, hsize', hb', htail'⟩ := Memory.wfFrom_cons.1 hm'
      have hk' := (hread k' hsize').trans (Memory.read_head k' b' m')
      have hle : k ≤ k' := Memory.le_of_read_ne_unlisted
        (Memory.wfFrom_cons.2 ⟨Nat.le_refl k, hsize, hb, htail⟩) (hk'.trans_ne hb')
      have hge : k' ≤ k := Memory.le_of_read_ne_unlisted
        (Memory.wfFrom_cons.2 ⟨Nat.le_refl k', hsize', hb', htail'⟩) (hk.trans_ne hb)
      obtain rfl : k = k' := Nat.le_antisymm hle hge
      obtain rfl : b = b' := hk.symm.trans (Memory.read_head k b' m')
      refine congrArg _ (ih htail htail' fun a ha => ?_)
      by_cases hka : k = a
      · subst hka
        rw [Memory.read_of_lt htail (Nat.lt_succ_self k), Memory.read_of_lt htail' (Nat.lt_succ_self k)]
      · rw [← Memory.read_tail b m hka, ← Memory.read_tail b m' hka]
        exact hread a ha

/-! ### The obligations -/

/-- Settles O51: an instruction stores only inside memory, a `LOAD` too, and `RESET` stores the glyph table. -/
theorem stepsKeepMemoryCanonical : Obligations.StepsKeepMemoryCanonical := by
  refine ⟨fun s t => step_keeps memWf_onPcStackMem exec_keeps_memWf,
    fun e s t => deliver_keeps memWf_onPcStackMem exec_keeps_memWf (fun _ _ rom => resetMemory_wf rom) ?_⟩
  intro bytes s hlen hs
  exact Memory.wf_writeBytes hs (by rw [Config.memSize]; omega)

/-- Settles O52: an instruction run from a fetchable PC keeps the bounds, and no event but `STEP` and `RESET` moves the
PC or touches the stack. -/
theorem stepsKeepPcBounded : Obligations.StepsKeepPcBounded :=
  ⟨fun _ _ => step_keeps pcBounded_onPcStackMem exec_keeps_pcBounded,
    fun _ _ _ => deliver_keeps pcBounded_onPcStackMem exec_keeps_pcBounded State.pcBounded_resetEvent
      fun _ _ _ hs => hs⟩

/-- Settles O53: `State.reset` lists no cell and has an empty stack; a `RESET` event stores the glyph table. -/
theorem resetMeetsInvariants : Obligations.ResetMeetsInvariants := by
  refine ⟨⟨State.reset_memory_wf, State.pcBounded_reset⟩, fun v rom s t h => ?_⟩
  cases h
  exact ⟨resetMemory_wf rom, s.pcBounded_resetEvent v rom⟩

/-- Settles O54: the canonical form leaves one way to list what is read. -/
theorem canonicalMemoriesAreEqualData : Obligations.CanonicalMemoriesAreEqualData :=
  fun _ _ hm hm' hread => Memory.eq_of_read_eq hm hm' hread

end Sys2Proof.Machine
end
